-- ==== Sys2Proof/Word.lean ====
section
/-! DEFINITION. The word types of the block (00_scope.md R13). -/

namespace Sys2Proof

/-- A 16-bit pattern: a `Word16` read through `toInt`, a `U16` read through `toNat` (R13). -/
abbrev Word := BitVec 16

/-- A cell of the bitstream frame, `U8` (R13, 20_memory.md R83). -/
abbrev Byte := BitVec 8

/-- A fundamental frequency word or a phase accumulator, `U32` (R13, 10_state.md R36, R43). -/
abbrev Word32 := BitVec 32

end Sys2Proof
end

