-- ==== Sys2Proof/Syntax.lean ====
section
/-! DEFINITION. The sixteen commands (30_encoding.md R113 to R119), the address spaces a command can
name (20_memory.md R80), the packet the host sends (R110, R111) and the reasons a command word names
no command (R120). -/

namespace Sys2Proof

/-- What the 3-bit space number of a format M command names (20_memory.md R80). -/
inductive Space where
  /-- 0, the PCM frame in -/
  | pcmi
  /-- 1, the PCM frame out -/
  | pcmo
  /-- 2, the frame vector -/
  | fv
  /-- 3, the bitstream frame -/
  | bs
  /-- 4, the spectral buffer's real parts -/
  | spr
  /-- 5, the spectral buffer's imaginary parts -/
  | spi
  /-- 6, no space -/
  | absent6
  /-- 7, no space -/
  | absent7
  deriving DecidableEq, Repr

/-- A command with the operands its encoding carries. Operand words that a command ignores (R111) are
no part of it. Every field has exactly the values its place in the packet has, so every term of this
type is well formed. -/
inductive Instr where
  /-- `SADD a, b` (R142) -/
  | sadd (a b : Word)
  /-- `SSUB a, b` (R143) -/
  | ssub (a b : Word)
  /-- `SMUL a, b` (R144) -/
  | smul (a b : Word)
  /-- `SSHL a, n` (R145) -/
  | sshl (a n : Word)
  /-- `SSHR a, n` (R146) -/
  | sshr (a n : Word)
  /-- `RDBUF space[index]` (R191) -/
  | rdbuf (space : Space) (index : BitVec 8)
  /-- `WRBUF space[index], data` (R192) -/
  | wrbuf (space : Space) (index : BitVec 8) (data : Word)
  /-- `ENCODE` (R332) -/
  | encode
  /-- `DECODE` (R333) -/
  | decode
  /-- `ENCODEBITS` (R336) -/
  | encodebits
  /-- `DECODEBITS` (R337) -/
  | decodebits
  /-- `PACK` (R212) -/
  | pack
  /-- `UNPACK` (R213) -/
  | unpack
  /-- `FFT` (R175) -/
  | fft
  /-- `IFFT` (R176) -/
  | ifft
  /-- `RDPARAM sel` (R194) -/
  | rdparam (sel : BitVec 8)
  deriving DecidableEq, Repr

/-- A command packet, 48 bits (R110, R111). -/
structure Packet where
  /-- the command word, `P[47:32]` -/
  cw : Word
  /-- the first operand word, `P[31:16]` -/
  a : Word
  /-- the second operand word, `P[15:0]` -/
  b : Word
  deriving DecidableEq, Repr

/-- Why a command word selects no row of the opcode map (R120). -/
inductive Illegal where
  /-- class 0 with `CW[7:0]` not zero -/
  | arithReserved
  /-- class 0 with `funct` 5 to 15 -/
  | arithFunct
  /-- class 2 with `CW[7:0]` not zero -/
  | frameReserved
  /-- class 2 with `funct` 8 to 15 -/
  | frameFunct
  /-- class 3 with `CW[11:8]` not zero -/
  | paramReserved
  /-- classes 4 to 15 -/
  | noClass
  deriving DecidableEq, Repr

end Sys2Proof
end

