-- ==== Sys2Proof/WellFormed.lean ====
section
/-! DEFINITION. What is well formed: a command word that selects a row of the opcode map
(30_encoding.md R119, R120) and a valid frame vector (20_memory.md R82). A term of `Instr` is well
formed by its type; the well-formedness of a configuration is `Cfg.wf` in Config.lean. -/

namespace Sys2Proof

/-- A row of the opcode map (R119). -/
structure OpcodeRow where
  /-- the mnemonic -/
  mnemonic : String
  /-- the `match` column -/
  pat : Word
  /-- the `mask` column -/
  mask : Word
  deriving DecidableEq, Repr

/-- The complete opcode map, in the order of R119. -/
def opcodeMap : List OpcodeRow :=
  [⟨"SADD", 0x0000, 0xFFFF⟩, ⟨"SSUB", 0x0100, 0xFFFF⟩, ⟨"SMUL", 0x0200, 0xFFFF⟩,
   ⟨"SSHL", 0x0300, 0xFFFF⟩, ⟨"SSHR", 0x0400, 0xFFFF⟩] ++
  [⟨"RDBUF", 0x1000, 0xF800⟩, ⟨"WRBUF", 0x1800, 0xF800⟩] ++
  [⟨"ENCODE", 0x2000, 0xFFFF⟩, ⟨"DECODE", 0x2100, 0xFFFF⟩, ⟨"ENCODEBITS", 0x2200, 0xFFFF⟩,
   ⟨"DECODEBITS", 0x2300, 0xFFFF⟩, ⟨"PACK", 0x2400, 0xFFFF⟩, ⟨"UNPACK", 0x2500, 0xFFFF⟩,
   ⟨"FFT", 0x2600, 0xFFFF⟩, ⟨"IFFT", 0x2700, 0xFFFF⟩] ++
  [⟨"RDPARAM", 0x3000, 0xFF00⟩]

/-- A word `w` selects the row when `w & mask = match` (R119). -/
def OpcodeRow.selects (r : OpcodeRow) (w : Word) : Bool := (w &&& r.mask) == r.pat

/-- A command word is legal when it selects a row of the map (R120). -/
def legalCW (w : Word) : Bool := opcodeMap.any fun r => r.selects w

/-- `WIDTH[0..7]`, the widths of the eight fields of the frame (43_bitpacker.md R210). -/
def fieldWidths : List Nat := [12, 12, 12, 12, 11, 11, 11, 7]

/-- A frame vector is valid when every cell is below 2 to the width of its field (20_memory.md R82). -/
def validFV (fv : Vector Word 8) : Bool :=
  (fv.toList.zip fieldWidths).all fun p => p.1.toNat < 2 ^ p.2

end Sys2Proof
end

