-- ==== Sys2Proof/Decode.lean ====
section
/-! DEFINITION. The decoder and the encoder of command packets (30_encoding.md R110 to R122): total on
every packet; a command word that selects no row of the opcode map is rejected by name. -/

namespace Sys2Proof

/-- The packet in one 48-bit value `P`: `CW = P[47:32]`, `A = P[31:16]`, `B = P[15:0]` (R111). -/
def Packet.ofBits (p : BitVec 48) : Packet :=
  { cw := p.extractLsb' 32 16, a := p.extractLsb' 16 16, b := p.extractLsb' 0 16 }

/-- The 48-bit value of a packet (R111). -/
def Packet.toBits (p : Packet) : BitVec 48 := p.cw ++ p.a ++ p.b

/-- `CW[15:12]`, the class (R113). -/
def cwClass (cw : Word) : BitVec 4 := cw.extractLsb' 12 4

/-- `CW[11:8]`, `funct` of formats R and F, a reserved field of format P (R113). -/
def cwFunct (cw : Word) : BitVec 4 := cw.extractLsb' 8 4

/-- `CW[11]`, `dir` of format M (R113). -/
def cwDir (cw : Word) : BitVec 1 := cw.extractLsb' 11 1

/-- `CW[10:8]`, `space` of format M (R113). -/
def cwSpace (cw : Word) : BitVec 3 := cw.extractLsb' 8 3

/-- `CW[7:0]`: `index` of format M, `sel` of format P, a reserved field of formats R and F (R113). -/
def cwLow (cw : Word) : BitVec 8 := cw.extractLsb' 0 8

/-- The space of a space number (20_memory.md R80). -/
def Space.ofNum (n : BitVec 3) : Space :=
  match n.toNat with
  | 0 => .pcmi
  | 1 => .pcmo
  | 2 => .fv
  | 3 => .bs
  | 4 => .spr
  | 5 => .spi
  | 6 => .absent6
  | _ => .absent7

/-- The number of a space (20_memory.md R80). -/
def Space.num : Space → BitVec 3
  | .pcmi => 0
  | .pcmo => 1
  | .fv => 2
  | .bs => 3
  | .spr => 4
  | .spi => 5
  | .absent6 => 6
  | .absent7 => 7

/-- Format R: the operation of `funct` (R114). -/
def decodeArith (p : Packet) : Except Illegal Instr :=
  if cwLow p.cw ≠ 0 then .error .arithReserved
  else
    match (cwFunct p.cw).toNat with
    | 0 => .ok (.sadd p.a p.b)
    | 1 => .ok (.ssub p.a p.b)
    | 2 => .ok (.smul p.a p.b)
    | 3 => .ok (.sshl p.a p.b)
    | 4 => .ok (.sshr p.a p.b)
    | _ => .error .arithFunct

/-- Format M: `RDBUF` for `dir` 0, `WRBUF` with data `A` for `dir` 1 (R115). -/
def decodeAccess (p : Packet) : Instr :=
  if cwDir p.cw = 0 then .rdbuf (Space.ofNum (cwSpace p.cw)) (cwLow p.cw)
  else .wrbuf (Space.ofNum (cwSpace p.cw)) (cwLow p.cw) p.a

/-- Format F: the command of `funct` (R116). -/
def decodeFrame (p : Packet) : Except Illegal Instr :=
  if cwLow p.cw ≠ 0 then .error .frameReserved
  else
    match (cwFunct p.cw).toNat with
    | 0 => .ok .encode
    | 1 => .ok .decode
    | 2 => .ok .encodebits
    | 3 => .ok .decodebits
    | 4 => .ok .pack
    | 5 => .ok .unpack
    | 6 => .ok .fft
    | 7 => .ok .ifft
    | _ => .error .frameFunct

/-- Format P: `RDPARAM` (R117). -/
def decodeParam (p : Packet) : Except Illegal Instr :=
  if cwFunct p.cw ≠ 0 then .error .paramReserved else .ok (.rdparam (cwLow p.cw))

/-- The command of a packet, or why its command word is illegal (R113, R120, R121). -/
def decode (p : Packet) : Except Illegal Instr :=
  match (cwClass p.cw).toNat with
  | 0 => decodeArith p
  | 1 => .ok (decodeAccess p)
  | 2 => decodeFrame p
  | 3 => decodeParam p
  | _ => .error .noClass

/-- A command word of class `c` from its fields `CW[11:8]` and `CW[7:0]` (R113). -/
def cwOf (c f : BitVec 4) (low : BitVec 8) : Word := c ++ f ++ low

/-- A command word of format M (R113). -/
def cwAccess (dir : BitVec 1) (space : Space) (index : BitVec 8) : Word :=
  1#4 ++ dir ++ space.num ++ index

/-- The packet of a command, operand words it ignores being 0 (R119, R123). -/
def encode : Instr → Packet
  | .sadd a b => ⟨cwOf 0 0 0, a, b⟩
  | .ssub a b => ⟨cwOf 0 1 0, a, b⟩
  | .smul a b => ⟨cwOf 0 2 0, a, b⟩
  | .sshl a n => ⟨cwOf 0 3 0, a, n⟩
  | .sshr a n => ⟨cwOf 0 4 0, a, n⟩
  | .rdbuf space index => ⟨cwAccess 0 space index, 0, 0⟩
  | .wrbuf space index data => ⟨cwAccess 1 space index, data, 0⟩
  | .encode => ⟨cwOf 2 0 0, 0, 0⟩
  | .decode => ⟨cwOf 2 1 0, 0, 0⟩
  | .encodebits => ⟨cwOf 2 2 0, 0, 0⟩
  | .decodebits => ⟨cwOf 2 3 0, 0, 0⟩
  | .pack => ⟨cwOf 2 4 0, 0, 0⟩
  | .unpack => ⟨cwOf 2 5 0, 0, 0⟩
  | .fft => ⟨cwOf 2 6 0, 0, 0⟩
  | .ifft => ⟨cwOf 2 7 0, 0, 0⟩
  | .rdparam sel => ⟨cwOf 3 0 sel, 0, 0⟩

/-- The packet of an instruction numbered as spec/opcode_table.json numbers it: the first word, `CW`,
in the low 16 bits, then `A`, then `B`; bits above `nbits` are 0 (log entry 10). -/
def packetOfTableWord (nbits w : Nat) : Packet :=
  let v := w % 2 ^ nbits
  { cw := BitVec.ofNat 16 v, a := BitVec.ofNat 16 (v / 2 ^ 16), b := BitVec.ofNat 16 (v / 2 ^ 32) }

/-- The instruction the decoder reads from a table word. -/
def decodeTableWord (nbits w : Nat) : Option Instr :=
  match decode (packetOfTableWord nbits w) with
  | .ok i => some i
  | .error _ => none

end Sys2Proof
end

