-- ==== Sys2Proof/Machine/Arith.lean ====
section
/-! DEFINITION. The integer functions the rules are written in (00_scope.md R13, R14), the two
logarithm functions (40_alu.md R150, R151), and total reads of fixed-size arrays. -/

namespace Sys2Proof.Machine

/-- `s16`: the signed reading of a 16-bit pattern (R13). -/
def s16 (w : Word) : Int := w.toInt

/-- `u16`: the 16-bit pattern of an integer, its value modulo 2^16 (R13). -/
def u16 (v : Int) : Word := BitVec.ofInt 16 v

/-- `sat16`: the clamp to the 16-bit signed range (R14). -/
def sat16 (v : Int) : Int := if v < -32768 then -32768 else if v > 32767 then 32767 else v

/-- The word a signal value is stored as: `u16 (sat16 v)` (40_alu.md R140). -/
def narrow (v : Int) : Word := u16 (sat16 v)

/-- `clamp(v, lo, hi) = min(hi, max(lo, v))` over the integers (R14). -/
def clampInt (v lo hi : Int) : Int := min hi (max lo v)

/-- `clamp` over the naturals (R14). -/
def clampNat (v lo hi : Nat) : Nat := min hi (max lo v)

/-- `v >> n`, the floor of `v / 2^n`, also for a negative `v` (R14). -/
def asr (v : Int) (n : Nat) : Int := v / 2 ^ n

/-- `ceil_shift(v, n) = (v + 2^n - 1) >> n` for `v >= 0` (R14). -/
def ceilShift (v n : Nat) : Nat := (v + 2 ^ n - 1) / 2 ^ n

/-- The square root by trying the bits `b - 1` down to 0 on top of `r`. -/
def isqrtFrom (v : Nat) : Nat → Nat → Nat
  | 0, r => r
  | b + 1, r => isqrtFrom v b (if (r + 2 ^ b) * (r + 2 ^ b) ≤ v then r + 2 ^ b else r)

/-- `isqrt(v)`: the largest `r` with `r * r <= v` (R14). -/
def isqrt (v : Nat) : Nat := isqrtFrom v (v.log2 / 2 + 1) 0

/-- `LOG2Q(x)`, the Q8 base-2 logarithm with a linear mantissa, `LOG2Q(0) = 0` (40_alu.md R150). -/
def log2Q (x : Nat) : Nat :=
  if x = 0 then 0
  else
    let e := x.log2
    e * 256 + (x * 2 ^ (15 - e) - 32768) / 2 ^ 7

/-- `EXP2Q(v)`, the matching antilogarithm, `EXP2Q(0) = 0` (40_alu.md R151). -/
def exp2Q (v : Nat) : Nat :=
  if v = 0 then 0 else ((256 + v % 256) * 2 ^ (v / 256)) / 2 ^ 8

/-- The sum of `f` over `lo, lo + 1, ..., hi - 1`; 0 over an empty interval (44_pitch.md R230). -/
def sumNat (lo hi : Nat) (f : Nat → Nat) : Nat := ((List.range' lo (hi - lo)).map f).sum

/-- The integer sum of `f` over `lo, ..., hi - 1`. -/
def sumInt (lo hi : Nat) (f : Nat → Int) : Int := ((List.range' lo (hi - lo)).map f).sum

/-- Cell `i` of an array, `d` past its end. -/
def cellD {α : Type} {n : Nat} (v : Vector α n) (i : Nat) (d : α) : α :=
  if h : i < n then v[i] else d

/-- Element `l`, counted from 1, of a per-harmonic array; `d` outside `1..56` (log entry 9). -/
def harmD {α : Type} {n : Nat} (v : Vector α n) (l : Nat) (d : α) : α :=
  if l = 0 then d else cellD v (l - 1) d

end Sys2Proof.Machine
end

