-- ==== Sys2Proof/Machine/Alu.lean ====
section
/-! DEFINITION. The saturating arithmetic unit as functions (40_alu.md R140 to R146): the exact integer
result of each operation, and the operation itself, its narrowing. The units call the operations
(R149, R153); the commands are in Arithmetic.lean. -/

namespace Sys2Proof.Machine

/-- The exact sum (R142). -/
def exactAdd (a b : Word) : Int := s16 a + s16 b

/-- The exact difference (R143). -/
def exactSub (a b : Word) : Int := s16 a - s16 b

/-- The floored Q15 product (R144). -/
def exactMul (a b : Word) : Int := asr (s16 a * s16 b) 15

/-- `a` shifted left by `n` for `n >= 0`, right by `-n`, flooring, for `n < 0` (R145). -/
def shiftExact (a n : Int) : Int := if 0 ≤ n then a * 2 ^ n.toNat else asr a (-n).toNat

/-- The exact result of `SSHL` (R145). -/
def exactShl (a n : Word) : Int := shiftExact (s16 a) (s16 n)

/-- The exact result of `SSHR`: the shift the other way (R146). -/
def exactShr (a n : Word) : Int := shiftExact (s16 a) (-(s16 n))

/-- `SADD` (R142). -/
def sadd (a b : Word) : Word := narrow (exactAdd a b)

/-- `SSUB` (R143). -/
def ssub (a b : Word) : Word := narrow (exactSub a b)

/-- `SMUL` (R144). -/
def smul (a b : Word) : Word := narrow (exactMul a b)

/-- `SSHL` (R145). -/
def sshl (a n : Word) : Word := narrow (exactShl a n)

/-- `SSHR` (R146). -/
def sshr (a n : Word) : Word := narrow (exactShr a n)

end Sys2Proof.Machine
end

