-- ==== Sys2Proof/Machine/Tables.lean ====
section
/-! DEFINITION. The constant tables and index functions: the sine table and bit reversal
(41_fft.md R171, R172); the pitch-index-to-frequency table, the harmonic and band counts, the bands
and the spectral bins (44_pitch.md R226 to R230). -/

namespace Sys2Proof.Machine

/-- `SINQ[0..64]`, the quarter-wave table, as listed in R171. -/
def sinQ : List Nat :=
  [0, 804, 1608, 2410, 3212, 4011, 4808, 5602,
   6393, 7179, 7962, 8739, 9512, 10278, 11039, 11793] ++
  [12539, 13279, 14010, 14732, 15446, 16151, 16846, 17530,
   18204, 18868, 19519, 20159, 20787, 21403, 22005, 22594] ++
  [23170, 23731, 24279, 24811, 25329, 25832, 26319, 26790,
   27245, 27683, 28105, 28510, 28898, 29268, 29621, 29956] ++
  [30273, 30571, 30852, 31113, 31356, 31580, 31785, 31971,
   32137, 32285, 32412, 32521, 32609, 32678, 32728, 32757] ++
  [32767]

/-- The half wave `k = 0..128` of `SINTAB`, mirrored about 64 (R171). -/
def sinHalf (k : Nat) : Nat := sinQ.getD (if k ≤ 64 then k else 128 - k) 0

/-- `SINTAB(k)` as an integer in -32767..32767 (R171). -/
def sinVal (k : Nat) : Int :=
  if k % 256 ≤ 128 then sinHalf (k % 256) else -(sinHalf (k % 256 - 128) : Int)

/-- `SINTAB(k)` as a word (R171). -/
def sinTab (k : Nat) : Word := u16 (sinVal k)

/-- `COSTAB(k) = SINTAB(k + 64)` (R171). -/
def cosTab (k : Nat) : Word := sinTab (k + 64)

/-- `bitrev8(i)`: bit `b` of `i` becomes bit `7 - b` (R172). -/
def bitrev8 (i : Nat) : Nat :=
  ((List.range 8).map fun b => (i.testBit b).toNat * 2 ^ (7 - b)).sum

/-- `W0TAB(b)` for the shortest half-sample period `p2Min` (R226). -/
def w0Tab (p2Min b : Nat) : Nat := 2 ^ 34 / (2 * (b + p2Min) + 1)

/-- The number of multiples of `W0` below half the sampling rate, a quarter added (R227). -/
def harmonicsBelow (w0 : Nat) : Nat := (2 ^ 33 + w0) / (4 * w0)

/-- The harmonic count of `DeriveLK`, bounded to 9..56 (R227). -/
def deriveL (w0 : Nat) : Nat := clampNat (9254 * harmonicsBelow w0 / 10000) 9 56

/-- The band count of a harmonic count: one band per three harmonics, at most 12 (R227). -/
def bandCount (l : Nat) : Nat := if l ≤ 36 then (l + 2) / 3 else 12

/-- `DeriveLK(W0)`, the fixed derivation rule (R227). -/
def deriveLK (w0 : Nat) : Nat × Nat := (deriveL w0, bandCount (deriveL w0))

/-- `band(l, K)`, the band of harmonic `l` (R229). -/
def band (l k : Nat) : Nat := min ((l - 1) / 3) (k - 1)

/-- `bin_lo(l, W0)`, the first bin of harmonic `l` (R230). -/
def binLo (l w0 : Nat) : Nat := ceilShift ((2 * l - 1) * w0) 25

/-- `bin_hi(l, W0)`, the bin past the last one of harmonic `l`, at most 128 (R230). -/
def binHi (l w0 : Nat) : Nat := min 128 (ceilShift ((2 * l + 1) * w0) 25)

/-- `cen_lo(l, W0)`, the first bin of the central half of harmonic `l` (R230). -/
def cenLo (l w0 : Nat) : Nat := ceilShift ((4 * l - 1) * w0) 26

/-- `cen_hi(l, W0)`, the bin past the central half of harmonic `l` (R230). -/
def cenHi (l w0 : Nat) : Nat := ceilShift ((4 * l + 1) * w0) 26

end Sys2Proof.Machine
end

