-- ==== Sys2Proof/Config.lean ====
section
/-! DEFINITION. The configuration record `Cfg` (00_scope.md R10, 92_eei_decisions.md section 2), its
well-formedness, and the configuration the block was built with: a constant without a body, so that
a statement about the block holds for every well-formed `Cfg` (R11, log entry 1). -/

namespace Sys2Proof

/-- The 24 open parameters of R10, as raw data. -/
structure Cfg where
  /-- `P2_MIN`, the shortest pitch period in half samples -/
  p2Min : Nat
  /-- `P2_MAX`, the longest pitch period in half samples -/
  p2Max : Nat
  /-- `LAG_MIN`, the shortest autocorrelation lag in samples -/
  lagMin : Nat
  /-- `LAG_MAX`, the longest autocorrelation lag in samples -/
  lagMax : Nat
  /-- `TH_DECAY`, Q15 -/
  thDecay : Word
  /-- `TH_SCALE`, Q15 -/
  thScale : Word
  /-- `TH_MIN`, Q15 -/
  thMin : Word
  /-- `AMP_BITS_V`, the index width of a voiced band -/
  ampBitsV : Nat
  /-- `AMP_BITS_U`, the index width of an unvoiced band -/
  ampBitsU : Nat
  /-- `GAIN_N`, the number of gain entries -/
  gainN : Nat
  /-- `GAIN_TAB` -/
  gainTab : List Word
  /-- `DEQ_V` -/
  deqV : List Word
  /-- `DEQ_U` -/
  deqU : List Word
  /-- `PRED_COEF`, Q15 -/
  predCoef : Word
  /-- `ENH_MIN`, Q14 -/
  enhMin : Word
  /-- `ENH_MAX`, Q14 -/
  enhMax : Word
  /-- `NOISE_A` -/
  noiseA : Nat
  /-- `NOISE_C` -/
  noiseC : Nat
  /-- `NOISE_M` -/
  noiseM : Nat
  /-- `NOISE_SEED0` -/
  noiseSeed0 : Nat
  /-- `NOISE_OFFSET` -/
  noiseOffset : Nat
  /-- `UV_SHIFT` -/
  uvShift : Nat
  /-- `AWIN`, the analysis window, Q15 -/
  awin : Vector Word 160
  /-- `SWIN`, the synthesis window, Q15 -/
  swin : Vector Word 256
  deriving DecidableEq, Repr

/-- A Q15 word in 0..32767 (R10). -/
def nonNegWord (w : Word) : Bool := w.toNat ≤ 32767

/-- `2 <= P2_MIN <= P2_MAX <= 32767` and `P2_MAX - P2_MIN <= 4095` (R10). -/
def Cfg.pitchRangeOk (c : Cfg) : Bool :=
  2 ≤ c.p2Min && c.p2Min ≤ c.p2Max && c.p2Max ≤ 32767 && c.p2Max - c.p2Min ≤ 4095

/-- `DeriveLK(W0TAB(0)) = (9, 3)` (R10, 44_pitch.md R228). -/
def Cfg.resetPairOk (c : Cfg) : Bool := Machine.deriveLK (Machine.w0Tab c.p2Min 0) == (9, 3)

/-- `1 <= LAG_MIN <= LAG_MAX <= 159` (R10). -/
def Cfg.lagRangeOk (c : Cfg) : Bool := 1 ≤ c.lagMin && c.lagMin ≤ c.lagMax && c.lagMax ≤ 159

/-- The voicing constants are Q15 words in 0..32767 (R10). -/
def Cfg.thresholdsOk (c : Cfg) : Bool :=
  nonNegWord c.thDecay && nonNegWord c.thScale && nonNegWord c.thMin

/-- `1 <= AMP_BITS_U < AMP_BITS_V <= 4` (R10). -/
def Cfg.ampBitsOk (c : Cfg) : Bool := 1 ≤ c.ampBitsU && c.ampBitsU < c.ampBitsV && c.ampBitsV ≤ 4

/-- `1 <= GAIN_N <= 4096`, and the three tables have the lengths R10 gives. -/
def Cfg.quantTablesOk (c : Cfg) : Bool :=
  1 ≤ c.gainN && c.gainN ≤ 4096 && c.gainTab.length == c.gainN &&
    c.deqV.length == 2 ^ c.ampBitsV && c.deqU.length == 2 ^ c.ampBitsU

/-- `PRED_COEF` is a Q15 word in 0..32767 (R10). -/
def Cfg.predOk (c : Cfg) : Bool := nonNegWord c.predCoef

/-- `1 <= ENH_MIN <= 16384 <= ENH_MAX <= 32767` (R10). -/
def Cfg.enhOk (c : Cfg) : Bool :=
  1 ≤ c.enhMin.toNat && c.enhMin.toNat ≤ 16384 && 16384 ≤ c.enhMax.toNat && nonNegWord c.enhMax

/-- `2 <= NOISE_M <= 65536`, the generator constants below it, the offset at most 32768 (R10). -/
def Cfg.noiseOk (c : Cfg) : Bool :=
  2 ≤ c.noiseM && c.noiseM ≤ 65536 && c.noiseA < c.noiseM && c.noiseC < c.noiseM &&
    c.noiseSeed0 < c.noiseM && c.noiseOffset ≤ 32768

/-- `UV_SHIFT` is in 0..15 (R10). -/
def Cfg.uvShiftOk (c : Cfg) : Bool := c.uvShift ≤ 15

/-- Every window entry is a Q15 word in 0..32767 (R10). -/
def Cfg.windowsOk (c : Cfg) : Bool := c.awin.toList.all nonNegWord && c.swin.toList.all nonNegWord

/-- A well-formed `Cfg`: all the constraints of R10. -/
def Cfg.wf (c : Cfg) : Bool :=
  c.pitchRangeOk && c.resetPairOk && c.lagRangeOk && c.thresholdsOk && c.ampBitsOk &&
    c.quantTablesOk && c.predOk && c.enhOk && c.noiseOk && c.uvShiftOk && c.windowsOk

/-- `B0_MAX = P2_MAX - P2_MIN`, the greatest pitch index (44_pitch.md R225). -/
def Cfg.b0Max (c : Cfg) : Nat := c.p2Max - c.p2Min

/-- An entry of the `SWIN` of `REF0`: a trapezoid with 96-sample ramps (95_test_vectors.md 2). -/
def ref0Swin (n : Nat) : Nat :=
  if n < 96 then 32767 * (2 * n + 1) / 192
  else if n ≤ 159 then 32767
  else 32767 * (2 * (255 - n) + 1) / 192

/-- `REF0`, the spec's own test fixture (R11, 95_test_vectors.md section 2): not the hardware's
configuration. The model uses it to show that a well-formed `Cfg` exists, and the tests compute
with it. -/
def Cfg.ref0 : Cfg where
  p2Min := 39
  p2Max := 246
  lagMin := 21
  lagMax := 122
  thDecay := 32440
  thScale := 16384
  thMin := 8192
  ampBitsV := 4
  ampBitsU := 3
  gainN := 64
  gainTab := (List.range 64).map fun i => BitVec.ofNat 16 (64 * i)
  deqV := (List.range 16).map fun i => BitVec.ofInt 16 (128 * ((i : Int) - 8))
  deqU := (List.range 8).map fun i => BitVec.ofInt 16 (256 * ((i : Int) - 4))
  predCoef := 21299
  enhMin := 8192
  enhMax := 19661
  noiseA := 171
  noiseC := 11213
  noiseM := 53125
  noiseSeed0 := 0
  noiseOffset := 26562
  uvShift := 12
  awin := Vector.ofFn fun n => BitVec.ofInt 16 ((32767 - Machine.sinVal (n * 256 / 160 + 64)) / 2)
  swin := Vector.ofFn fun n => BitVec.ofNat 16 (ref0Swin n)

/-- `REF0` is well formed (95_test_vectors.md section 2). -/
theorem Cfg.ref0_wf : Cfg.ref0.wf = true := by decide +kernel

/-- A configuration a block can be built with: a `Cfg` together with the proof that it is well
formed (93_implementation_defined.md U3: no other one is offered). The default values only show
that the type has a member. -/
structure BuiltCfg where
  /-- the parameters -/
  val : Cfg := Cfg.ref0
  /-- they meet the constraints of R10 -/
  ok : val.wf = true := by exact Cfg.ref0_wf
  deriving Inhabited

/-- The configuration this block was built with. It has no body: nothing in Lean can evaluate it or
prove a value of it, so a theorem holds for every well-formed `Cfg` (R10, R11, log entry 1). -/
opaque Config.built : BuiltCfg

/-- The parameters the units read. -/
abbrev Config.cfg : Cfg := Config.built.val

end Sys2Proof
end

