-- ==== Sys2Proof/Machine/State.lean ====
section
/-! DEFINITION. The state of one instance: the parameter state register file (10_state.md R35), the
six data buffers (R45, 20_memory.md R80), and the command port (30_encoding.md R110, R112); the state
after reset (70_reset_and_hazards.md R380). -/

namespace Sys2Proof.Machine

/-- The parameter state register file, 336 words (10_state.md R35). A 1-based register `M[l]`, `MP[l]`
or `PH[l]` is element `l - 1` of its array. -/
structure Psrf where
  /-- `W0`, fundamental frequency of the current frame (R36) -/
  w0 : Word32
  /-- `L`, number of harmonics (R37) -/
  l : Word
  /-- `K`, number of voicing bands (R37) -/
  k : Word
  /-- `V`, voicing flags, bit `k` for band `k` (R38) -/
  v : Word
  /-- `M[1..56]`, spectral amplitudes (R39) -/
  m : Vector Word 56
  /-- `W0P`, the previous frame's `W0` -/
  w0p : Word32
  /-- `LP`, the previous frame's `L` -/
  lp : Word
  /-- `KP`, the previous frame's `K` -/
  kp : Word
  /-- `VP`, the previous frame's `V` -/
  vp : Word
  /-- `MP[1..56]`, the previous frame's `M` -/
  mp : Vector Word 56
  /-- `PC`, the current frame's value of the pitch history, an index (R40) -/
  pc : Word
  /-- `PP1`, previous pitch, an index (R40) -/
  pp1 : Word
  /-- `PP2`, previous-previous pitch, an index (R40) -/
  pp2 : Word
  /-- `THMAX`, the voicing threshold statistic (R41) -/
  thmax : Word
  /-- `SEED`, the noise generator's state (R42) -/
  seed : Word
  /-- PSRF word 127: reads as zero inside the block, nothing writes it (R35) -/
  reserved : Word
  /-- `PH[1..56]`, the phase accumulators (R43) -/
  ph : Vector Word32 56
  /-- `UVT[0..95]`, the unvoiced overlap tail (R44) -/
  uvt : Vector Word 96
  deriving DecidableEq, Repr

/-- The six data buffers (20_memory.md R80): arrays of cells of fixed size (R86, log entry 6). -/
structure Buffers where
  /-- `PCMI`, space 0 -/
  pcmi : Vector Word 160
  /-- `PCMO`, space 1 -/
  pcmo : Vector Word 160
  /-- `FV`, space 2 -/
  fv : Vector Word 8
  /-- `BS`, space 3 -/
  bs : Vector Byte 11
  /-- `SPR`, space 4 -/
  spr : Vector Word 256
  /-- `SPI`, space 5 -/
  spi : Vector Word 256
  deriving DecidableEq, Repr

/-- The status `ST` of a response: the complete list of synchronous exceptions (60_exceptions.md R350). -/
inductive Status where
  /-- 0: the command was performed -/
  | ok
  /-- 1: the command word selects no row of the opcode map -/
  | illegal
  /-- 2: the space does not exist, the index is past its end, or `sel` is 5 or more -/
  | badAddress
  /-- 3: a host write to `PCMO` in range -/
  | access
  deriving DecidableEq, Repr

/-- The response to a packet: `ST`, `SAT` and `Y` (30_encoding.md R110, R112). -/
structure Response where
  /-- `ST`, 2 bits -/
  st : Status
  /-- `SAT`, 1 bit -/
  sat : Bool
  /-- `Y`, 16 bits -/
  y : Word
  deriving DecidableEq, Repr

/-- The host's moves (00_scope.md R19): it sends a packet, or it asserts reset at a command boundary
(70_reset_and_hazards.md R382). Overlapping packets are no move (93_implementation_defined.md U1). -/
inductive HostMove where
  /-- a command packet -/
  | packet (p : Packet)
  /-- reset -/
  | reset
  deriving DecidableEq, Repr

/-- The whole state of one instance: plain data. -/
structure State where
  /-- the parameter state register file (10_state.md R35) -/
  psrf : Psrf
  /-- the data buffers (10_state.md R45) -/
  bufs : Buffers
  /-- the host's moves not yet taken, the next one first (the model's own field, log entry 2) -/
  inbox : List HostMove
  /-- the response to the last packet taken (the model's own field, log entry 3) -/
  response : Option Response
  deriving DecidableEq, Repr

/-- The faults of a step. There is none: every packet is answered (30_encoding.md R121,
60_exceptions.md R356, R364), so this type has no constructor; nothing raises it, which is safe. -/
inductive Fault where
  deriving DecidableEq, Repr

/-- Why the model gives no meaning. No instruction of this model is refused. -/
inductive Refusal where
  /-- raised by an arm of `exec` whose instruction has no meaning yet; safe, and no arm does so -/
  | notModelled (mnemonic : String)
  deriving DecidableEq, Repr

/-- The PSRF after reset under a configuration (70_reset_and_hazards.md R380, 10_state.md R47, R48). -/
def Psrf.resetOf (c : Cfg) : Psrf where
  w0 := BitVec.ofNat 32 (w0Tab c.p2Min 0)
  l := 9
  k := 3
  v := 0
  m := Vector.replicate 56 0
  w0p := 0
  lp := 0
  kp := 0
  vp := 0
  mp := Vector.replicate 56 0
  pc := 0
  pp1 := 0
  pp2 := 0
  thmax := 0
  seed := BitVec.ofNat 16 c.noiseSeed0
  reserved := 0
  ph := Vector.replicate 56 0
  uvt := Vector.replicate 96 0

/-- The buffers after reset: 0 in every cell (20_memory.md R88). -/
def Buffers.zero : Buffers where
  pcmi := Vector.replicate 160 0
  pcmo := Vector.replicate 160 0
  fv := Vector.replicate 8 0
  bs := Vector.replicate 11 0
  spr := Vector.replicate 256 0
  spi := Vector.replicate 256 0

/-- The state right after reset under a configuration (R380): no move waiting, no response given. -/
def State.resetOf (c : Cfg) : State where
  psrf := Psrf.resetOf c
  bufs := Buffers.zero
  inbox := []
  response := none

/-- The state right after reset of the block as it was built. -/
def State.reset : State := State.resetOf Config.cfg

end Sys2Proof.Machine
end

