-- ==== Sys2Proof/Machine/Flags.lean ====
section
/-! DEFINITION. The one flag: `SAT` of a response (10_state.md R32, 40_alu.md R141). No flag is stored. -/

namespace Sys2Proof.Machine

/-- `SAT`: 1 when the exact result is outside -32768..32767, that is when `sat16` changes it (R141). -/
def satFlag (exact : Int) : Bool := exact < -32768 || exact > 32767

/-- The 2-bit code of a status (30_encoding.md R112, 60_exceptions.md R350). -/
def Status.code : Status → BitVec 2
  | .ok => 0
  | .illegal => 1
  | .badAddress => 2
  | .access => 3

/-- The response as one 19-bit value `Q`: `ST = Q[18:17]`, `SAT = Q[16]`, `Y = Q[15:0]` (R112). -/
def Response.bits (r : Response) : BitVec 19 := r.st.code ++ BitVec.ofBool r.sat ++ r.y

end Sys2Proof.Machine
end

