-- ==== Sys2Proof/Machine/Operands.lean ====
section
/-! DEFINITION. The operand forms: a cell named by (`space`, `index`), the only addressing mode
(42_buffer_param_access.md R190), and a word of the parameter view named by `sel` (R194). The operand
words `A` and `B` of format R are read through `s16` (30_encoding.md R111, R114) in Alu.lean. -/

namespace Sys2Proof.Machine

/-- `size(space)`, the number of cells; 0 for spaces 6 and 7 (R190). -/
def spaceSize : Space → Nat
  | .pcmi => 160
  | .pcmo => 160
  | .fv => 8
  | .bs => 11
  | .spr => 256
  | .spi => 256
  | .absent6 => 0
  | .absent7 => 0

/-- Whether the host may write the space: every one that exists but `PCMO` (20_memory.md R80,
60_exceptions.md R353). -/
def hostWritable : Space → Bool
  | .pcmo => false
  | _ => true

/-- The status of a host read of a cell: `BAD_ADDRESS` out of range (60_exceptions.md R352). -/
def readStatus (space : Space) (index : BitVec 8) : Status :=
  if spaceSize space ≤ index.toNat then .badAddress else .ok

/-- The status of a host write of a cell: `BAD_ADDRESS` out of range, checked first, then `ACCESS` for
`PCMO` (60_exceptions.md R353, R354). -/
def writeStatus (space : Space) (index : BitVec 8) : Status :=
  if spaceSize space ≤ index.toNat then .badAddress
  else if hostWritable space then .ok else .access

/-- Cell `i` of a space as a 16-bit value: the cell, or the byte of `BS` extended with zeros (R191);
0 where there is no cell. -/
def Buffers.readCell (m : Buffers) (space : Space) (i : Nat) : Word :=
  match space with
  | .pcmi => cellD m.pcmi i 0
  | .pcmo => cellD m.pcmo i 0
  | .fv => cellD m.fv i 0
  | .bs => (cellD m.bs i 0).setWidth 16
  | .spr => cellD m.spr i 0
  | .spi => cellD m.spi i 0
  | .absent6 => 0
  | .absent7 => 0

/-- Write cell `i` of a space: the 16-bit value, or its low byte in `BS` (R192); nothing where there is
no cell. -/
def Buffers.writeCell (m : Buffers) (space : Space) (i : Nat) (v : Word) : Buffers :=
  match space with
  | .pcmi => { m with pcmi := m.pcmi.setIfInBounds i v }
  | .pcmo => { m with pcmo := m.pcmo.setIfInBounds i v }
  | .fv => { m with fv := m.fv.setIfInBounds i v }
  | .bs => { m with bs := m.bs.setIfInBounds i (v.setWidth 8) }
  | .spr => { m with spr := m.spr.setIfInBounds i v }
  | .spi => { m with spi := m.spi.setIfInBounds i v }
  | .absent6 => m
  | .absent7 => m

/-- The word of the parameter view that `sel` names: `W0L`, `W0H`, `L`, `K`, `V`; none for 5 to 255
(R194). -/
def Psrf.viewWord (p : Psrf) (sel : BitVec 8) : Option Word :=
  match sel.toNat with
  | 0 => some (p.w0.extractLsb' 0 16)
  | 1 => some (p.w0.extractLsb' 16 16)
  | 2 => some p.l
  | 3 => some p.k
  | 4 => some p.v
  | _ => none

/-- Half of a 32-bit register by PSRF word number: the low half first (10_state.md R35). -/
def halfWord (w : Word32) (high : Bool) : Word :=
  if high then w.extractLsb' 16 16 else w.extractLsb' 0 16

/-- PSRF word `n`, 0 to 335, by the register map's own numbering (10_state.md R35); 0 past its end.
The numbers name registers and are no host addresses (R34). -/
def Psrf.word (p : Psrf) (n : Nat) : Word :=
  if n ≤ 1 then halfWord p.w0 (n == 1)
  else if n = 2 then p.l
  else if n = 3 then p.k
  else if n = 4 then p.v
  else if n ≤ 60 then harmD p.m (n - 4) 0
  else if n ≤ 62 then halfWord p.w0p (n == 62)
  else if n = 63 then p.lp
  else if n = 64 then p.kp
  else if n = 65 then p.vp
  else if n ≤ 121 then harmD p.mp (n - 65) 0
  else if n = 122 then p.pc
  else if n = 123 then p.pp1
  else if n = 124 then p.pp2
  else if n = 125 then p.thmax
  else if n = 126 then p.seed
  else if n = 127 then p.reserved
  else if n ≤ 239 then halfWord (harmD p.ph ((n - 126) / 2) 0) (n % 2 == 1)
  else cellD p.uvt (n - 240) 0

end Sys2Proof.Machine
end

