-- ==== Sys2Proof/Machine/Ops.lean ====
section
/-! DEFINITION. The operations every meaning shares: answering a packet, answering it with an error
(the whole of taking an exception, 60_exceptions.md R351, R359), and the moves between the port and
the state. There is no trap return (R360), so none stands here. -/

namespace Sys2Proof.Machine

/-- Give a response; nothing else of the state changes. -/
def State.respond (s : State) (r : Response) : State := { s with response := some r }

/-- The response of a command that was performed: `ST` = 0 (30_encoding.md R112). -/
def State.answer (s : State) (y : Word) (sat : Bool) : State :=
  s.respond { st := .ok, sat := sat, y := y }

/-- The response of a command whose rule gives no result: `Y` = 0, `SAT` = 0, `ST` = 0 (R112). -/
def State.done (s : State) : State := s.answer 0 false

/-- `raise <Status>`, taking an exception: the response carries the status with `Y` = 0 and `SAT` = 0,
and the command has no other effect (60_exceptions.md R351, R359). -/
def State.raise (s : State) (st : Status) : State := s.respond { st := st, sat := false, y := 0 }

/-- The answer of an arithmetic command from its exact result: `Y` the clamped value, `SAT` whether it
was clamped (40_alu.md R140, R141). -/
def State.answerExact (s : State) (exact : Int) : State := s.answer (narrow exact) (satFlag exact)

/-- Replace the spectral buffer (20_memory.md R84). -/
def Buffers.withSpectrum (m : Buffers) (x : Vector Word 256 × Vector Word 256) : Buffers :=
  { m with spr := x.1, spi := x.2 }

/-- Reset as a move of the host (70_reset_and_hazards.md R380, R382): every register and cell takes
its reset value, no response stands; the host's later moves are the host's and stay (log entry 7). -/
def State.resetKeepingInbox (s : State) : State := { State.reset with inbox := s.inbox }

end Sys2Proof.Machine
end

