-- ==== Sys2Proof/Machine/Arithmetic.lean ====
section
/-! DEFINITION. The arithmetic commands, format R (40_alu.md R142 to R146): no state changes, the result
and `SAT` are in the response, and none raises an error (60_exceptions.md R355). -/

namespace Sys2Proof.Machine

/-- `SADD a, b` (R142). -/
def execSadd (a b : Word) (s : State) : Host.Outcome State Fault Refusal :=
  .next (s.answerExact (exactAdd a b))

/-- `SSUB a, b` (R143). -/
def execSsub (a b : Word) (s : State) : Host.Outcome State Fault Refusal :=
  .next (s.answerExact (exactSub a b))

/-- `SMUL a, b` (R144). -/
def execSmul (a b : Word) (s : State) : Host.Outcome State Fault Refusal :=
  .next (s.answerExact (exactMul a b))

/-- `SSHL a, n` (R145). -/
def execSshl (a n : Word) (s : State) : Host.Outcome State Fault Refusal :=
  .next (s.answerExact (exactShl a n))

/-- `SSHR a, n` (R146). -/
def execSshr (a n : Word) (s : State) : Host.Outcome State Fault Refusal :=
  .next (s.answerExact (exactShr a n))

end Sys2Proof.Machine
end

