-- ==== Sys2Proof/Machine/BufferAccess.lean ====
section
/-! DEFINITION. Buffer access and the read-only parameter view, formats M and P
(42_buffer_param_access.md R191, R192, R194). -/

namespace Sys2Proof.Machine

/-- `RDBUF space[index]`: the cell in `Y`, or `BAD_ADDRESS`; nothing changes (R191). -/
def execRdbuf (space : Space) (index : BitVec 8) (s : State) : Host.Outcome State Fault Refusal :=
  match readStatus space index with
  | .ok => .next (s.answer (s.bufs.readCell space index.toNat) false)
  | st => .next (s.raise st)

/-- `WRBUF space[index], data`: the cell written, or `BAD_ADDRESS`, or `ACCESS` for `PCMO` (R192). -/
def execWrbuf (space : Space) (index : BitVec 8) (data : Word) (s : State) :
    Host.Outcome State Fault Refusal :=
  match writeStatus space index with
  | .ok => .next (State.done { s with bufs := s.bufs.writeCell space index.toNat data })
  | st => .next (s.raise st)

/-- `RDPARAM sel`: a word of the parameter view in `Y`, or `BAD_ADDRESS`; nothing changes (R194). -/
def execRdparam (sel : BitVec 8) (s : State) : Host.Outcome State Fault Refusal :=
  match s.psrf.viewWord sel with
  | some y => .next (s.answer y false)
  | none => .next (s.raise .badAddress)

end Sys2Proof.Machine
end

