-- ==== Sys2Proof/Machine/Fft.lean ====
section
/-! DEFINITION. The fixed-point FFT and IFFT (41_fft.md R170 to R176). A complex value is a pair of
words, real part first. -/

namespace Sys2Proof.Machine

/-- The twiddle factor of index `t`: `COSTAB(t)` and `-SINTAB(t)`, or `SINTAB(t)` when inverse (R173).
No entry of `SINTAB` is -32768, so the negation is exact (R171). -/
def twiddle (inverse : Bool) (t : Nat) : Word × Word :=
  (cosTab t, if inverse then sinTab t else -(sinTab t))

/-- The product `(tr, ti)` of a value and a twiddle factor (R173). -/
def rotate (b w : Word × Word) : Word × Word :=
  (ssub (smul b.1 w.1) (smul b.2 w.2), sadd (smul b.1 w.2) (smul b.2 w.1))

/-- Half of both parts, `SSHR(x, 1)` (R173). -/
def halve (a : Word × Word) : Word × Word := (sshr a.1 1, sshr a.2 1)

/-- The two inputs of a butterfly's last lines: as they are when inverse, halved when forward (R173). -/
def butterflyScale (inverse : Bool) (a : Word × Word) : Word × Word :=
  if inverse then a else halve a

/-- A butterfly: the values for `k+j` and `k+j+half` from those two places and the twiddle (R173). -/
def butterfly (inverse : Bool) (a b w : Word × Word) : (Word × Word) × (Word × Word) :=
  let x := butterflyScale inverse a
  let t := butterflyScale inverse (rotate b w)
  ((sadd x.1 t.1, sadd x.2 t.2), (ssub x.1 t.1, ssub x.2 t.2))

/-- Stage `st` of the transform. Its butterflies touch disjoint pairs, so each place is given by the
values the previous stage left: place `i` is the upper or the lower one of its pair (R173, log
entry 8). -/
def fftStage (inverse : Bool) (x : Vector (Word × Word) 256) (st : Nat) : Vector (Word × Word) 256 :=
  Vector.ofFn fun i =>
    let m := 2 ^ st
    let half := m / 2
    let step := 256 / m
    let p := i.val % m
    if p < half then
      (butterfly inverse (cellD x i 0) (cellD x (i + half) 0) (twiddle inverse (p * step))).1
    else
      (butterfly inverse (cellD x (i - half) 0) (cellD x i 0)
        (twiddle inverse ((p - half) * step))).2

/-- The bit-reversal permutation of the two input arrays (R173). -/
def fftLoad (re im : Vector Word 256) : Vector (Word × Word) 256 :=
  Vector.ofFn fun i => (cellD re (bitrev8 i) 0, cellD im (bitrev8 i) 0)

/-- `FFTCORE(re, im, inverse)`: bit reversal, then stages 1 to 8 (R173). -/
@[irreducible] def fftCore (inverse : Bool) (x : Vector Word 256 × Vector Word 256) :
    Vector Word 256 × Vector Word 256 :=
  let y := (List.range' 1 8).foldl (fftStage inverse) (fftLoad x.1 x.2)
  (y.map Prod.fst, y.map Prod.snd)

/-- The spectral buffer's two arrays (20_memory.md R84). -/
def Buffers.spectrum (m : Buffers) : Vector Word 256 × Vector Word 256 := (m.spr, m.spi)

/-- `FFT` (R175). -/
def execFft (s : State) : Host.Outcome State Fault Refusal :=
  .next (State.done { s with bufs := s.bufs.withSpectrum (fftCore false s.bufs.spectrum) })

/-- `IFFT` (R176). -/
def execIfft (s : State) : Host.Outcome State Fault Refusal :=
  .next (State.done { s with bufs := s.bufs.withSpectrum (fftCore true s.bufs.spectrum) })

end Sys2Proof.Machine
end

