-- ==== Sys2Proof/Machine/Voicing.lean ====
section
/-! DEFINITION. The analysis spectrum and the voicing classifier (45_voicing.md R250 to R256). -/

namespace Sys2Proof.Machine

/-- Sample `n` of the PCM frame in as a number (44_pitch.md R231). -/
def pcmSample (m : Buffers) (n : Nat) : Int := s16 (cellD m.pcmi n 0)

/-- The windowed, zero-padded frame (R251). -/
def windowedFrame (c : Cfg) (m : Buffers) : Vector Word 256 :=
  Vector.ofFn fun n =>
    if n.val < 160 then smul (cellD m.pcmi n 0) (cellD c.awin n 0) else 0

/-- The analysis spectrum of the frame in `PCMI` (R251). -/
def analysisSpectrum (c : Cfg) (m : Buffers) : Vector Word 256 × Vector Word 256 :=
  fftCore false (windowedFrame c m, Vector.replicate 256 0)

/-- `E(m)`, the energy of bin `m`, 0..128 (R252). -/
def binEnergies (x : Vector Word 256 × Vector Word 256) : Vector Nat 129 :=
  Vector.ofFn fun m =>
    (s16 (cellD x.1 m 0) * s16 (cellD x.1 m 0) + s16 (cellD x.2 m 0) * s16 (cellD x.2 m 0)).toNat

/-- `T[l]`, the energy of the harmonic's interval (R252). -/
def harmonicEnergy (e : Vector Nat 129) (w0 l : Nat) : Nat :=
  sumNat (binLo l w0) (binHi l w0) fun m => cellD e m 0

/-- `P[l]`, the energy of the harmonic's central half (R252). -/
def centreEnergy (e : Vector Nat 129) (w0 l : Nat) : Nat :=
  sumNat (cenLo l w0) (min (cenHi l w0) (binHi l w0)) fun m => cellD e m 0

/-- The harmonics 1..`L` of band `k` (R250). -/
def bandHarmonics (l k kk : Nat) : List Nat :=
  (List.range' 1 l).filter fun h => band h k == kk

/-- The error of a band from its energy `TB` and its central energy `PB` (R253). -/
def bandError (tb pb : Nat) : Nat := if tb = 0 then 32767 else (tb - pb) * 32767 / tb

/-- `D[k]` of every band, band 0 first (R253). -/
def bandErrors (e : Vector Nat 129) (w0 l k : Nat) : List Nat :=
  (List.range k).map fun kk =>
    bandError (((bandHarmonics l k kk).map (harmonicEnergy e w0)).sum)
      (((bandHarmonics l k kk).map (centreEnergy e w0)).sum)

/-- The new `THMAX`: the largest band error, or the decayed old value (R254). -/
def trackedMax (c : Cfg) (thmax : Word) (errors : List Nat) : Word :=
  narrow (max (errors.foldl max 0 : Nat) (s16 (smul thmax c.thDecay)))

/-- `theta`, the threshold of the frame, from the `THMAX` just written (R255). -/
def voicingThreshold (c : Cfg) (thmax : Word) : Int := max (s16 c.thMin) (s16 (smul thmax c.thScale))

/-- The voicing word: bit `k` for a band whose error is strictly below the threshold (R255). -/
def voicingWord (theta : Int) (errors : List Nat) : Nat :=
  (errors.mapIdx fun k d => if (d : Int) < theta then 2 ^ k else 0).sum

/-- `VoicingClassify`: the new `THMAX`, `V`, and `T[1..L]` from the analysis spectrum (R252 to R255). -/
def voicingClassify (c : Cfg) (x : Vector Word 256 × Vector Word 256) (thmax : Word)
    (w0 l k : Nat) : Word × Nat × List Nat :=
  let e := binEnergies x
  let errors := bandErrors e w0 l k
  let thmax' := trackedMax c thmax errors
  (thmax', voicingWord (voicingThreshold c thmax') errors,
    (List.range' 1 l).map (harmonicEnergy e w0))

/-- The decode side: the voicing word reduced to the frame's band count (R256). -/
def maskVoicing (w : Word) (k : Nat) : Word := BitVec.ofNat 16 (w.toNat % 2 ^ k)

/-- Bit `k` of a voicing word (10_state.md R38). -/
def voiced (v : Word) (k : Nat) : Bool := v.getLsbD k

end Sys2Proof.Machine
end

