-- ==== Sys2Proof/Machine/Amplitude.lean ====
section
/-! DEFINITION. Spectral amplitude analysis, quantizer, dequantizer and enhancement (46_amplitude.md R265
to R274, R283). Per-harmonic lists hold harmonic `l` at place `l - 1`. -/

namespace Sys2Proof.Machine

/-- `Mraw[l]` from the harmonic's energy (R266). -/
def rawAmplitude (t : Nat) : Nat := min 32767 (isqrt (16 * t))

/-- An amplitude register read as a number for its logarithm (R265). -/
def ampVal (w : Word) : Nat := (s16 w).toNat

/-- `Lam(i)`: the previous frame's log amplitude, the index clamped into 1..`LP` (R267). -/
def prevLog (mp : Vector Word 56) (lp i : Nat) : Int :=
  if lp = 0 then 0 else log2Q (ampVal (harmD mp (clampNat i 1 lp) 0))

/-- `pl[l]`: the previous log amplitudes interpolated at position `l * LP / L` (R267). -/
def interpLog (mp : Vector Word 56) (lp len l : Nat) : Int :=
  let num := l * lp
  let j := num / len
  let f := num % len * 256 / len
  prevLog mp lp j + asr ((prevLog mp lp (j + 1) - prevLog mp lp j) * f) 8

/-- `Predict(L)`: the interpolated shape with its mean removed, scaled by `PRED_COEF` (R267). -/
def predict (c : Cfg) (mp : Vector Word 56) (lp len : Nat) : List Int :=
  let pl := (List.range' 1 len).map (interpLog mp lp len)
  let mu := pl.sum / (len : Int)
  pl.map fun p => asr (s16 c.predCoef * (p - mu)) 15

/-- One table entry of the search for the nearest: it replaces the best so far, kept as (index,
distance), only when strictly nearer (R268). -/
def nearestStep (t : Int) (best : Option (Nat × Nat)) (entry : Word × Nat) : Option (Nat × Nat) :=
  let d := (s16 entry.1 - t).natAbs
  match best with
  | none => some (entry.2, d)
  | some b => if d < b.2 then some (entry.2, d) else best

/-- `nearest(tab, n, t)`: the smallest index among the first `n` at which `abs(tab[i] - t)` is least
(R268). -/
def nearest (tab : List Word) (n : Nat) (t : Int) : Nat :=
  match (tab.take n).zipIdx.foldl (nearestStep t) none with
  | none => 0
  | some b => b.1

/-- `e[l]`, the residual of every harmonic (R269). -/
def residuals (raw : List Nat) (pr : List Int) : List Int :=
  List.zipWith (fun m p => (log2Q m : Int) - p) raw pr

/-- The gain index of the mean residual (R269). -/
def gainIndex (c : Cfg) (e : List Int) : Nat :=
  nearest c.gainTab c.gainN (e.sum / (e.length : Int))

/-- `t[k]`, the mean residual of a band above the gain (R270). -/
def bandResidual (e : List Int) (g : Int) (len k kk : Nat) : Int :=
  let hs := bandHarmonics len k kk
  (hs.map fun h => e.getD (h - 1) 0 - g).sum / (hs.length : Int)

/-- The index width of a band: finer when voiced (R270). -/
def indexBits (c : Cfg) (v : Word) (kk : Nat) : Nat :=
  if voiced v kk then c.ampBitsV else c.ampBitsU

/-- The dequantizer table of a band (R270, R273). -/
def bandTable (c : Cfg) (v : Word) (kk : Nat) : List Word :=
  if voiced v kk then c.deqV else c.deqU

/-- `pos_k`: the place of band `k`'s lowest bit in the 52-bit string, bands laid from the top (R271). -/
def bandPos (c : Cfg) (v : Word) (kk : Nat) : Nat :=
  52 - ((List.range (kk + 1)).map (indexBits c v)).sum

/-- The band index of a residual (R270). -/
def bandIndex (c : Cfg) (v : Word) (kk : Nat) (t : Int) : Nat :=
  nearest (bandTable c v kk) (2 ^ indexBits c v kk) t

/-- The amplitude bit string `S` of the band indices (R271). -/
def amplitudeString (c : Cfg) (v : Word) (idx : List Nat) : Nat :=
  (idx.mapIdx fun kk i => i * 2 ^ bandPos c v kk).sum

/-- Fields 3 to 7 cut from `S` (R271). -/
def stringFields (s : Nat) : List Nat :=
  [s / 2 ^ 40 % 2 ^ 12, s / 2 ^ 29 % 2 ^ 11, s / 2 ^ 18 % 2 ^ 11, s / 2 ^ 7 % 2 ^ 11, s % 2 ^ 7]

/-- The gain entry of a gain index (R269, R273). -/
def gainEntry (c : Cfg) (gi : Nat) : Int := s16 (c.gainTab.getD gi 0)

/-- `AmpEncode`: the gain index and fields 3 to 7 of the frame vector (R269 to R271). -/
def ampEncode (c : Cfg) (mp : Vector Word 56) (lp : Nat) (raw : List Nat) (len k : Nat) (v : Word) :
    List Nat :=
  let e := residuals raw (predict c mp lp len)
  let gi := gainIndex c e
  let idx := (List.range k).map fun kk => bandIndex c v kk (bandResidual e (gainEntry c gi) len k kk)
  gi :: stringFields (amplitudeString c v idx)

/-- The string `S` read from a frame vector, upper cell bits dropped (R272). -/
def frameString (fv : Vector Word 8) : Nat :=
  (cellD fv 3 0).toNat % 2 ^ 12 * 2 ^ 40 + (cellD fv 4 0).toNat % 2 ^ 11 * 2 ^ 29 +
    (cellD fv 5 0).toNat % 2 ^ 11 * 2 ^ 18 + (cellD fv 6 0).toNat % 2 ^ 11 * 2 ^ 7 +
    (cellD fv 7 0).toNat % 2 ^ 7

/-- `r[k]`: the dequantized residual of a band, its index read from `S` (R272, R273). -/
def bandLevel (c : Cfg) (s : Nat) (v : Word) (kk : Nat) : Int :=
  s16 ((bandTable c v kk).getD (s / 2 ^ bandPos c v kk % 2 ^ indexBits c v kk) 0)

/-- `AmpDecode`: `Mq[1..L]` from a frame vector (R272, R273). -/
def ampDecode (c : Cfg) (mp : Vector Word 56) (lp : Nat) (fv : Vector Word 8) (len k : Nat)
    (v : Word) : List Nat :=
  let g := gainEntry c (min (cellD fv 2 0).toNat (c.gainN - 1))
  let s := frameString fv
  let r := (List.range k).map (bandLevel c s v)
  (predict c mp lp len).mapIdx fun i p =>
    exp2Q (clampInt (g + r.getD (band (i + 1) k) 0 + p) 0 3839).toNat

/-- `Mq[l]` of a per-harmonic list, `l` counted from 1. -/
def quantAmp (mq : List Nat) (l : Nat) : Nat := mq.getD (l - 1) 0

/-- The local spectral mean of harmonic `l` (R283). -/
def localMean (mq : List Nat) (len l : Nat) : Nat :=
  (quantAmp mq (max (l - 1) 1) + quantAmp mq l + quantAmp mq (min (l + 1) len)) / 3

/-- The enhancement weight of harmonic `l`, a Q14 gain (R283). -/
def enhanceWeight (c : Cfg) (mq : List Nat) (len l : Nat) : Nat :=
  let mu := localMean mq len l
  if mu = 0 then 16384
  else clampNat (quantAmp mq l * 16384 / mu) c.enhMin.toNat c.enhMax.toNat

/-- The enhanced amplitude of harmonic `l` (R283). -/
def enhanceAmp (c : Cfg) (mq : List Nat) (len l : Nat) : Nat :=
  min 32767 (quantAmp mq l * enhanceWeight c mq len l / 2 ^ 14)

/-- `Enhance(Mq, L)`: the amplitudes for `PSRF.M`, 0 beyond `L` (R283). -/
@[irreducible] def enhance (c : Cfg) (mq : List Nat) (len : Nat) : Vector Word 56 :=
  Vector.ofFn fun i => if i.val + 1 ≤ len then BitVec.ofNat 16 (enhanceAmp c mq len (i + 1)) else 0

end Sys2Proof.Machine
end

