-- ==== Sys2Proof/Machine/Bitpacker.lean ====
section
/-! DEFINITION. The 88-bit frame format and the bit packer (43_bitpacker.md R210 to R213). Bit position
`i` of the frame is bit `i` of a list, most significant bit of byte 0 first (R90, R211). -/

namespace Sys2Proof.Machine

/-- The `w` low bits of `v`, most significant first (R211). -/
def bitsMsb (w v : Nat) : List Bool := (List.range w).map fun t => v.testBit (w - 1 - t)

/-- The number whose bits, most significant first, are `bs` (R213: `v = 2 * v + bit`). -/
def ofBitsMsb (bs : List Bool) : Nat := bs.foldl (fun v b => 2 * v + b.toNat) 0

/-- `WIDTH[f]` (R210). -/
def fieldWidth (f : Nat) : Nat := fieldWidths.getD f 0

/-- `START[f]`, the sum of the widths before field `f` (R210). -/
def fieldStart (f : Nat) : Nat := (fieldWidths.take f).sum

/-- The 88 bits of a frame vector: each cell modulo 2 to its field's width, in field order (R212). -/
def frameBits (fv : Vector Word 8) : List Bool :=
  (List.range 8).flatMap fun f => bitsMsb (fieldWidth f) ((cellD fv f 0).toNat % 2 ^ fieldWidth f)

/-- The bitstream frame of a frame vector (R212). -/
@[irreducible] def packFrame (fv : Vector Word 8) : Vector Byte 11 :=
  Vector.ofFn fun j => BitVec.ofNat 8 (ofBitsMsb (((frameBits fv).drop (8 * j)).take 8))

/-- The 88 bits of a bitstream frame (R211). -/
def streamBits (bs : Vector Byte 11) : List Bool := bs.toList.flatMap fun b => bitsMsb 8 b.toNat

/-- The frame vector of a bitstream frame (R213). -/
@[irreducible] def unpackFrame (bs : Vector Byte 11) : Vector Word 8 :=
  Vector.ofFn fun f =>
    BitVec.ofNat 16 (ofBitsMsb (((streamBits bs).drop (fieldStart f)).take (fieldWidth f)))

/-- `PACK` on the buffers: `BS` from `FV`. -/
def Buffers.packed (m : Buffers) : Buffers := { m with bs := packFrame m.fv }

/-- `UNPACK` on the buffers: `FV` from `BS`. -/
def Buffers.unpacked (m : Buffers) : Buffers := { m with fv := unpackFrame m.bs }

/-- `PACK` (R212). -/
def execPack (s : State) : Host.Outcome State Fault Refusal :=
  .next (State.done { s with bufs := s.bufs.packed })

/-- `UNPACK` (R213). -/
def execUnpack (s : State) : Host.Outcome State Fault Refusal :=
  .next (State.done { s with bufs := s.bufs.unpacked })

end Sys2Proof.Machine
end

