-- ==== Sys2Proof/Machine/Pitch.lean ====
section
/-! DEFINITION. The pitch detector (44_pitch.md R231 to R236). All its values are exact integers (R237). -/

namespace Sys2Proof.Machine

/-- `r(p)`, the autocorrelation of the frame at lag `p` over the overlap (R231). -/
def autoCorr (x : Nat → Int) (p : Nat) : Int := sumInt p 160 fun n => x n * x (n - p)

/-- `e0(p)`, the energy of the later samples of the overlap (R231). -/
def energyLate (x : Nat → Int) (p : Nat) : Int := sumInt p 160 fun n => x n * x n

/-- `e1(p)`, the energy of the earlier samples of the overlap (R231). -/
def energyEarly (x : Nat → Int) (p : Nat) : Int := sumInt p 160 fun n => x (n - p) * x (n - p)

/-- One lag of the coarse search: skipped when `r(p) <= 0`; otherwise it replaces the best so far,
kept as (lag, `r^2`, `e0 * e1`), when its normalized value is strictly greater (R232). -/
def coarseStep (x : Nat → Int) (best : Option (Nat × Int × Int)) (p : Nat) :
    Option (Nat × Int × Int) :=
  let rp := autoCorr x p
  if rp ≤ 0 then best
  else
    let num := rp * rp
    let den := energyLate x p * energyEarly x p
    match best with
    | none => some (p, num, den)
    | some b => if num * b.2.2 > b.2.1 * den then some (p, num, den) else best

/-- The coarse search over `LAG_MIN..LAG_MAX` in increasing order (R232). -/
def coarseSearch (c : Cfg) (x : Nat → Int) : Option (Nat × Int × Int) :=
  (List.range' c.lagMin (c.lagMax - c.lagMin + 1)).foldl (coarseStep x) none

/-- The half-sample offset `d` of the parabola through `ym`, `y0`, `yp` (R233). -/
def parabolaOffset (ym y0 yp : Int) : Int :=
  let curv := ym - 2 * y0 + yp
  let slope := ym - yp
  if 0 ≤ curv then 0
  else if 2 * slope ≤ curv then 1
  else if -curv ≤ 2 * slope then -1
  else 0

/-- The offset of a coarse lag, 0 at either end of the range (R233). -/
def refineOffset (c : Cfg) (x : Nat → Int) (p : Nat) : Int :=
  if c.lagMin < p ∧ p < c.lagMax then
    parabolaOffset (autoCorr x (p - 1)) (autoCorr x p) (autoCorr x (p + 1))
  else 0

/-- The raw estimate in half samples: `2 * p + d`, or the previous pitch when no lag qualified
(R233, R234). -/
def rawPitch (c : Cfg) (x : Nat → Int) (pp1 : Nat) : Int :=
  match coarseSearch c x with
  | none => (pp1 + c.p2Min : Nat)
  | some b => 2 * (b.1 : Int) + refineOffset c x b.1

/-- `median3(a, b, c)`, the middle of three values (R235). -/
def median3 (a b c : Nat) : Nat := a + b + c - max a (max b c) - min a (min b c)

/-- `rawc`, the raw estimate clamped into the period range (R233). -/
def clampedRaw (c : Cfg) (x : Nat → Int) (pp1 : Nat) : Nat :=
  (clampInt (rawPitch c x pp1) c.p2Min c.p2Max).toNat

/-- `P2`, the smoothed period (R235). -/
def smoothedPitch (c : Cfg) (rawc pp1 pp2 : Nat) : Nat :=
  clampNat (median3 rawc (pp1 + c.p2Min) (pp2 + c.p2Min)) c.p2Min c.p2Max

/-- `PitchDetect(x, PP1, PP2)`: the pitch index `b0` and the history value (R236). -/
def pitchDetect (c : Cfg) (x : Nat → Int) (pp1 pp2 : Nat) : Nat × Nat :=
  let rawc := clampedRaw c x pp1
  (smoothedPitch c rawc pp1 pp2 - c.p2Min, rawc - c.p2Min)

end Sys2Proof.Machine
end

