-- ==== Sys2Proof/Machine/UnvoicedSynth.lean ====
section
/-! DEFINITION. The unvoiced noise shaper (48_unvoiced_synth.md R310 to R316). -/

namespace Sys2Proof.Machine

/-- One draw of the generator: the new `SEED` (R311). -/
def noiseNext (c : Cfg) (seed : Word) : Word :=
  BitVec.ofNat 16 ((c.noiseA * seed.toNat + c.noiseC) % c.noiseM)

/-- The sample drawn, from the new `SEED` (R311). -/
def noiseSample (c : Cfg) (seed : Word) : Word := narrow ((seed.toNat : Int) - c.noiseOffset)

/-- `count` draws: the samples in order and the last `SEED` (R311). -/
@[irreducible] def noiseDraws (c : Cfg) : Nat → Word → List Word × Word
  | 0, seed => ([], seed)
  | count + 1, seed =>
    let next := noiseNext c seed
    let rest := noiseDraws c count next
    (noiseSample c next :: rest.1, rest.2)

/-- The noise block `re[0..255]` (R311). -/
def noiseBlock (samples : List Word) : Vector Word 256 := Vector.ofFn fun n => samples.getD n 0

/-- `g[m]`, the amplitude of the unvoiced harmonic that owns bin `m`, or 0 (R313). -/
def spectralGain (p : Psrf) (m : Nat) : Int :=
  (List.range' 1 p.l.toNat).foldl
    (fun g l =>
      if !voiced p.v (band l p.k.toNat) && decide (binLo l p.w0.toNat ≤ m) &&
          decide (m < binHi l p.w0.toNat)
      then s16 (harmD p.m l 0) else g) 0

/-- A spectrum value times its gain, shifted by `UV_SHIFT` and clamped (R314). -/
def shapeWord (c : Cfg) (x : Word) (g : Int) : Word := narrow (asr (s16 x * g) c.uvShift)

/-- The real parts shaped, bins 0..128, and mirrored into the upper half (R314). -/
def shapedReal (c : Cfg) (gains : Vector Int 129) (re : Vector Word 256) : Vector Word 256 :=
  Vector.ofFn fun m =>
    let b := if m.val ≤ 128 then m.val else 256 - m.val
    shapeWord c (cellD re b 0) (cellD gains b 0)

/-- The imaginary part of bin `m`, 0..128, shaped, bins 0 and 128 cleared (R314). -/
def shapedImagLow (c : Cfg) (gains : Vector Int 129) (im : Vector Word 256) (m : Nat) : Word :=
  if m = 0 ∨ m = 128 then 0 else shapeWord c (cellD im m 0) (cellD gains m 0)

/-- The imaginary parts shaped and mirrored with `SSUB(0, x)` into the upper half (R314). -/
def shapedImag (c : Cfg) (gains : Vector Int 129) (im : Vector Word 256) : Vector Word 256 :=
  Vector.ofFn fun m =>
    if m.val ≤ 128 then shapedImagLow c gains im m else ssub 0 (shapedImagLow c gains im (256 - m))

/-- The shaped spectrum (R313, R314). -/
def shapeSpectrum (c : Cfg) (p : Psrf) (x : Vector Word 256 × Vector Word 256) :
    Vector Word 256 × Vector Word 256 :=
  let gains : Vector Int 129 := Vector.ofFn fun m => spectralGain p m
  (shapedReal c gains x.1, shapedImag c gains x.2)

/-- The shaped noise block before the window: noise, forward transform, envelope, inverse transform
(R311 to R315). -/
def shapedNoise (c : Cfg) (p : Psrf) (samples : List Word) : Vector Word 256 × Vector Word 256 :=
  fftCore true
    (shapeSpectrum c p (fftCore false (noiseBlock samples, Vector.replicate 256 0)))

/-- `y[n]`, the block weighted by the synthesis window (R316). -/
def windowedNoise (c : Cfg) (re : Vector Word 256) (n : Nat) : Word :=
  smul (cellD re n 0) (cellD c.swin n 0)

/-- `su[n]`: the block joined to the previous frame's tail (R316). -/
def overlapAdd (c : Cfg) (uvt : Vector Word 96) (re : Vector Word 256) (n : Nat) : Word :=
  if n < 96 then sadd (cellD uvt n 0) (windowedNoise c re n) else windowedNoise c re n

/-- The new tail (R316). -/
@[irreducible] def noiseTail (c : Cfg) (re : Vector Word 256) : Vector Word 96 :=
  Vector.ofFn fun n => windowedNoise c re (160 + n)

end Sys2Proof.Machine
end

