-- ==== Sys2Proof/Machine/VoicedSynth.lean ====
section
/-! DEFINITION. The harmonic oscillator bank and the phase accumulator array (47_voiced_synth.md R295 to
R300). -/

namespace Sys2Proof.Machine

/-- `a1[l]`: the start amplitude, the previous frame's where the harmonic existed and was voiced (R296). -/
def startAmp (p : Psrf) (l : Nat) : Int :=
  if l ≤ p.lp.toNat ∧ voiced p.vp (band l p.kp.toNat) then s16 (harmD p.mp l 0) else 0

/-- `a2[l]`: the end amplitude, the current frame's where the harmonic is voiced (R296). -/
def endAmp (p : Psrf) (l : Nat) : Int :=
  if voiced p.v (band l p.k.toNat) then s16 (harmD p.m l 0) else 0

/-- `w(n)`: the interpolated fundamental of sample `n` (R297). -/
def fundamentalAt (p : Psrf) (n : Nat) : Nat :=
  (p.w0p.toNat * (160 - n) + p.w0.toNat * n) / 160

/-- `a(l, n)`: the interpolated amplitude (R298). -/
def ampAt (a1 a2 : Int) (n : Nat) : Word := narrow ((a1 * (160 - n : Nat) + a2 * n) / 160)

/-- The contribution of one oscillator: its amplitude times the sine of its phase (R298). -/
def oscillator (a : Word) (phase : Word32) : Word := smul a (sinTab (phase.toNat / 2 ^ 24))

/-- Sample `n`: the saturating sum of the contributions in the order `l` = 1, 2, ..., `L` (R298). The
list `amps` holds (`l`, `a1[l]`, `a2[l]`). -/
def voicedSample (amps : List (Nat × Int × Int)) (ph : Vector Word32 56) (n : Nat) : Word :=
  amps.foldl (fun acc x => sadd acc (oscillator (ampAt x.2.1 x.2.2 n) (harmD ph x.1 0))) 0

/-- Every phase of a harmonic 1..`L` advanced by `l * w`, modulo 2^32 (R297). -/
def advancePhases (len w : Nat) (ph : Vector Word32 56) : Vector Word32 56 :=
  ph.mapFinIdx fun i x _ => if i + 1 ≤ len then x + BitVec.ofNat 32 ((i + 1) * w) else x

/-- The samples `n`, `n + 1`, ... and the phases after them: each sample is computed from the old
phases, then they advance (R297, R299). -/
def voicedLoop (p : Psrf) (amps : List (Nat × Int × Int)) :
    Nat → Nat → Vector Word32 56 → List Word × Vector Word32 56
  | 0, _, ph => ([], ph)
  | count + 1, n, ph =>
    let rest := voicedLoop p amps count (n + 1) (advancePhases p.l.toNat (fundamentalAt p n) ph)
    (voicedSample amps ph n :: rest.1, rest.2)

/-- The slots above the harmonic count cleared (R300). -/
def clearSlots (len : Nat) (ph : Vector Word32 56) : Vector Word32 56 :=
  ph.mapFinIdx fun i x _ => if i + 1 ≤ len then x else 0

/-- The oscillators of the frame: (`l`, `a1[l]`, `a2[l]`) for `l` = 1..`L` (R296). -/
def oscillatorAmps (p : Psrf) : List (Nat × Int × Int) :=
  (List.range' 1 p.l.toNat).map fun l => (l, startAmp p l, endAmp p l)

/-- `VoicedSynth()`: the 160 samples `sv` and the new phases (R296 to R300). -/
@[irreducible] def voicedSynth (p : Psrf) : List Word × Vector Word32 56 :=
  let r := voicedLoop p (oscillatorAmps p) 160 0 p.ph
  (r.1, clearSlots p.l.toNat r.2)

end Sys2Proof.Machine
end

