-- ==== Sys2Proof/Machine/Frame.lean ====
section
/-! DEFINITION. The frame commands (49_frame_commands.md R330 to R337). The functions take the
configuration as an argument; the meanings give them the one the block was built with. -/

namespace Sys2Proof.Machine

/-- `FrameShift()`: the current frame's registers into the shadow copies, all at once (R331). -/
def Psrf.frameShift (p : Psrf) : Psrf :=
  { p with
    pp2 := p.pp1, pp1 := p.pc, w0p := p.w0, lp := p.l, kp := p.k, vp := p.v, mp := p.m }

/-- The pitch index of a frame vector, clamped on the whole cell (R335). -/
def frameIndex (c : Cfg) (fv : Vector Word 8) : Nat := min (cellD fv 0 0).toNat c.b0Max

/-- `ParamDecode()`: the current-frame registers from a frame vector, whatever it holds (R335). -/
def Psrf.paramDecode (c : Cfg) (p : Psrf) (fv : Vector Word 8) : Psrf :=
  let b0 := frameIndex c fv
  let w0 := w0Tab c.p2Min b0
  let len := deriveL w0
  let k := bandCount len
  let v := maskVoicing (cellD fv 1 0) k
  { p with
    pc := BitVec.ofNat 16 b0
    w0 := BitVec.ofNat 32 w0
    l := BitVec.ofNat 16 len
    k := BitVec.ofNat 16 k
    v := v
    m := enhance c (ampDecode c p.mp p.lp.toNat fv len k v) len }

/-- The frame vector of the eight numbers a frame command writes. -/
def frameVector (xs : List Nat) : Vector Word 8 := Vector.ofFn fun f => BitVec.ofNat 16 (xs.getD f 0)

/-- What the encode path computes from the shifted registers and `PCMI` (R332). -/
structure EncodeAnalysis where
  /-- the analysis spectrum -/
  spectrum : Vector Word 256 × Vector Word 256
  /-- the new `THMAX` -/
  thmax : Word
  /-- the detector's history value -/
  hist : Nat
  /-- the frame vector -/
  fv : Vector Word 8
  deriving DecidableEq, Repr

/-- The analysis stages of the encode path, in the order of R332: pitch, spectrum, voicing,
amplitudes. -/
@[irreducible] def encodeAnalysis (c : Cfg) (p : Psrf) (m : Buffers) : EncodeAnalysis :=
  let pitch := pitchDetect c (pcmSample m) p.pp1.toNat p.pp2.toNat
  let w0 := w0Tab c.p2Min pitch.1
  let len := deriveL w0
  let k := bandCount len
  let spectrum := analysisSpectrum c m
  let voicing := voicingClassify c spectrum p.thmax w0 len k
  let amp := ampEncode c p.mp p.lp.toNat (voicing.2.2.map rawAmplitude) len k
    (BitVec.ofNat 16 voicing.2.1)
  { spectrum := spectrum
    thmax := voicing.1
    hist := pitch.2
    fv := frameVector (pitch.1 :: voicing.2.1 :: amp) }

/-- The registers after `ENCODE`: the parameter decode of the frame vector just formed, with the new
`THMAX`, and the detector's history value in `PC` (R332). -/
def Psrf.encoded (c : Cfg) (p : Psrf) (a : EncodeAnalysis) : Psrf :=
  { Psrf.paramDecode c { p with thmax := a.thmax } a.fv with pc := BitVec.ofNat 16 a.hist }

/-- The buffers after `ENCODE`: the analysis spectrum and the frame vector (R332). -/
def Buffers.encoded (m : Buffers) (a : EncodeAnalysis) : Buffers :=
  { m.withSpectrum a.spectrum with fv := a.fv }

/-- `ENCODE` on the registers and buffers: shift, analysis, frame vector, parameter decode (R332). -/
def encodeFrame (c : Cfg) (s : State) : State :=
  let a := encodeAnalysis c s.psrf.frameShift s.bufs
  { s with psrf := s.psrf.frameShift.encoded c a, bufs := s.bufs.encoded a }

/-- The shaped noise block of a frame, before the window, from the decoded registers
(48_unvoiced_synth.md R311 to R315). -/
@[irreducible] def noiseOutput (c : Cfg) (p : Psrf) : Vector Word 256 × Vector Word 256 :=
  shapedNoise c p (noiseDraws c 256 p.seed).1

/-- The registers the synthesizers write: `PH`, `SEED`, `UVT` (47_voiced_synth.md R300,
48_unvoiced_synth.md R311, R316). -/
def Psrf.synthesized (c : Cfg) (p : Psrf) : Psrf :=
  { p with
    ph := (voicedSynth p).2
    seed := (noiseDraws c 256 p.seed).2
    uvt := noiseTail c (noiseOutput c p).1 }

/-- The final mix: `PCMO[i] = SADD(sv[i], su[i])` (48_unvoiced_synth.md R317). -/
@[irreducible] def mixedFrame (c : Cfg) (p : Psrf) : Vector Word 160 :=
  let sv := (voicedSynth p).1
  let re := (noiseOutput c p).1
  Vector.ofFn fun i => sadd (sv.getD i 0) (overlapAdd c p.uvt re i)

/-- The buffers the synthesis stages write: the spectral buffer and `PCMO` (R333). -/
def Buffers.synthesized (c : Cfg) (p : Psrf) (m : Buffers) : Buffers :=
  { m.withSpectrum (noiseOutput c p) with pcmo := mixedFrame c p }

/-- The registers after the first two stages of the decode path (R333). -/
def decodedRegs (c : Cfg) (s : State) : Psrf := Psrf.paramDecode c s.psrf.frameShift s.bufs.fv

/-- `DECODE` on the registers and buffers: shift, parameter decode, synthesis (R333). -/
def decodeFrame (c : Cfg) (s : State) : State :=
  { s with
    psrf := (decodedRegs c s).synthesized c
    bufs := s.bufs.synthesized c (decodedRegs c s) }

/-- `ENCODE` (R332). -/
def execEncode (s : State) : Host.Outcome State Fault Refusal :=
  .next (encodeFrame Config.cfg s).done

/-- `DECODE` (R333). -/
def execDecode (s : State) : Host.Outcome State Fault Refusal :=
  .next (decodeFrame Config.cfg s).done

/-- `ENCODEBITS`: `ENCODE` then `PACK` as one command (R336). -/
def execEncodebits (s : State) : Host.Outcome State Fault Refusal :=
  let t := encodeFrame Config.cfg s
  .next (State.done { t with bufs := t.bufs.packed })

/-- `DECODEBITS`: `UNPACK` then `DECODE` as one command (R337). -/
def execDecodebits (s : State) : Host.Outcome State Fault Refusal :=
  .next (decodeFrame Config.cfg { s with bufs := s.bufs.unpacked }).done

end Sys2Proof.Machine
end

