-- ==== Sys2Proof/Machine/Dispatch.lean ====
section
/-! DEFINITION. `exec`: one arm per command, each one call of its meaning. -/

namespace Sys2Proof.Machine

def exec (i : Instr) (s : State) : Host.Outcome State Fault Refusal :=
  match i with
  | .sadd a b => Sys2Proof.Machine.execSadd a b s
  | .ssub a b => Sys2Proof.Machine.execSsub a b s
  | .smul a b => Sys2Proof.Machine.execSmul a b s
  | .sshl a n => Sys2Proof.Machine.execSshl a n s
  | .sshr a n => Sys2Proof.Machine.execSshr a n s
  | .rdbuf space index => Sys2Proof.Machine.execRdbuf space index s
  | .wrbuf space index data => Sys2Proof.Machine.execWrbuf space index data s
  | .encode => Sys2Proof.Machine.execEncode s
  | .decode => Sys2Proof.Machine.execDecode s
  | .encodebits => Sys2Proof.Machine.execEncodebits s
  | .decodebits => Sys2Proof.Machine.execDecodebits s
  | .pack => Sys2Proof.Machine.execPack s
  | .unpack => Sys2Proof.Machine.execUnpack s
  | .fft => Sys2Proof.Machine.execFft s
  | .ifft => Sys2Proof.Machine.execIfft s
  | .rdparam sel => Sys2Proof.Machine.execRdparam sel s

end Sys2Proof.Machine
end

