-- ==== Sys2Proof/Machine/Step.lean ====
section
/-! DEFINITION. One step: the sequencer takes the host's next move and performs it whole
(00_scope.md R16, R19). -/

namespace Sys2Proof.Machine

/-- One step. With no move waiting nothing happens (60_exceptions.md R358, R369; log entry 4). A reset
is performed (70_reset_and_hazards.md R380). A packet is taken off the port and decoded: its command
is executed, and a command word that selects no row of the opcode map is answered `ILLEGAL`
(30_encoding.md R120). -/
def step (s : State) : Host.Outcome State Fault Refusal :=
  match s.inbox with
  | [] => .next s
  | .reset :: rest => .next (State.resetKeepingInbox { s with inbox := rest })
  | .packet p :: rest =>
    match decode p with
    | .ok i => exec i { s with inbox := rest }
    | .error _ => .next (State.raise { s with inbox := rest } .illegal)

/-- The state in which the table word's packet is the host's next move (log entry 2). -/
def State.withFetchWord (s : State) (nbits w : Nat) : State :=
  { s with inbox := .packet (packetOfTableWord nbits w) :: s.inbox }

end Sys2Proof.Machine
end

