-- ==== Sys2Proof/Safety.lean ====
section
/-! DEFINITION. What a safe run keeps (49_frame_commands.md R338) and the terms the claims use: what a
command reads and writes (20_memory.md R100), the operand words it uses (30_encoding.md R111, R119),
and the relation between an encoding and a decoding instance (49_frame_commands.md R341). -/

namespace Sys2Proof.Machine

/-- The invariants of the PSRF after every frame command and after reset (R338), with the value
ranges of the register map (10_state.md R35). -/
structure Psrf.Inv (c : Cfg) (p : Psrf) : Prop where
  /-- `W0 = W0TAB(b)` for some `b` in 0..`B0_MAX` -/
  freq : ∃ b, b ≤ c.b0Max ∧ p.w0.toNat = w0Tab c.p2Min b
  /-- (`L`, `K`) = `DeriveLK(W0)` -/
  pair : (p.l.toNat, p.k.toNat) = deriveLK p.w0.toNat
  /-- 9 <= `L` <= 56 -/
  harmonics : 9 ≤ p.l.toNat ∧ p.l.toNat ≤ 56
  /-- 3 <= `K` <= 12 -/
  bands : 3 ≤ p.k.toNat ∧ p.k.toNat ≤ 12
  /-- `V < 2^K` -/
  flags : p.v.toNat < 2 ^ p.k.toNat
  /-- 0 <= `M[l]` <= 32767 -/
  amps : ∀ i : Fin 56, p.m[i].toNat ≤ 32767
  /-- `M[l] = 0` for `l > L` -/
  ampsAbove : ∀ i : Fin 56, p.l.toNat < i.val + 1 → p.m[i] = 0
  /-- 0 <= `MP[l]` <= 32767 -/
  prevAmps : ∀ i : Fin 56, p.mp[i].toNat ≤ 32767
  /-- `PC`, `PP1`, `PP2` <= `B0_MAX` -/
  history : p.pc.toNat ≤ c.b0Max ∧ p.pp1.toNat ≤ c.b0Max ∧ p.pp2.toNat ≤ c.b0Max
  /-- 0 <= `THMAX` <= 32767 -/
  threshold : p.thmax.toNat ≤ 32767
  /-- `SEED < NOISE_M` -/
  noise : p.seed.toNat < c.noiseM
  /-- PSRF word 127 reads as zero -/
  reservedZero : p.reserved = 0

/-- The invariant of the whole state. The buffers carry no condition: every content of every cell is
legal (60_exceptions.md R356). -/
def State.Inv (s : State) : Prop := Psrf.Inv Config.cfg s.psrf

/-- The mnemonic of a command (30_encoding.md R119). -/
def mnemonicOf : Instr → String
  | .sadd _ _ => "SADD"
  | .ssub _ _ => "SSUB"
  | .smul _ _ => "SMUL"
  | .sshl _ _ => "SSHL"
  | .sshr _ _ => "SSHR"
  | .rdbuf _ _ => "RDBUF"
  | .wrbuf _ _ _ => "WRBUF"
  | .encode => "ENCODE"
  | .decode => "DECODE"
  | .encodebits => "ENCODEBITS"
  | .decodebits => "DECODEBITS"
  | .pack => "PACK"
  | .unpack => "UNPACK"
  | .fft => "FFT"
  | .ifft => "IFFT"
  | .rdparam _ => "RDPARAM"

/-- The four frame commands (00_scope.md R18). -/
def isFrameCommand : Instr → Bool
  | .encode => true
  | .decode => true
  | .encodebits => true
  | .decodebits => true
  | .sadd _ _ => false
  | .ssub _ _ => false
  | .smul _ _ => false
  | .sshl _ _ => false
  | .sshr _ _ => false
  | .rdbuf _ _ => false
  | .wrbuf _ _ _ => false
  | .pack => false
  | .unpack => false
  | .fft => false
  | .ifft => false
  | .rdparam _ => false

/-- Whether the command's row of R119 uses operand word `A`. -/
def usesA : Instr → Bool
  | .sadd _ _ => true
  | .ssub _ _ => true
  | .smul _ _ => true
  | .sshl _ _ => true
  | .sshr _ _ => true
  | .wrbuf _ _ _ => true
  | .rdbuf _ _ => false
  | .encode => false
  | .decode => false
  | .encodebits => false
  | .decodebits => false
  | .pack => false
  | .unpack => false
  | .fft => false
  | .ifft => false
  | .rdparam _ => false

/-- Whether the command's row of R119 uses operand word `B`. -/
def usesB : Instr → Bool
  | .sadd _ _ => true
  | .ssub _ _ => true
  | .smul _ _ => true
  | .sshl _ _ => true
  | .sshr _ _ => true
  | .wrbuf _ _ _ => false
  | .rdbuf _ _ => false
  | .encode => false
  | .decode => false
  | .encodebits => false
  | .decodebits => false
  | .pack => false
  | .unpack => false
  | .fft => false
  | .ifft => false
  | .rdparam _ => false

/-- Whether the space is part of the spectral buffer (20_memory.md R84). -/
def isSpectral (space : Space) : Bool := space == .spr || space == .spi

/-- The cells a command reads: the reads column of 20_memory.md R100. -/
def readsCell (i : Instr) (space : Space) (n : Nat) : Bool :=
  match i with
  | .rdbuf sp idx => space == sp && n == idx.toNat
  | .fft => isSpectral space
  | .ifft => isSpectral space
  | .pack => space == .fv
  | .unpack => space == .bs
  | .encode => space == .pcmi
  | .decode => space == .fv
  | .encodebits => space == .pcmi
  | .decodebits => space == .bs
  | .sadd _ _ => false
  | .ssub _ _ => false
  | .smul _ _ => false
  | .sshl _ _ => false
  | .sshr _ _ => false
  | .wrbuf _ _ _ => false
  | .rdparam _ => false

/-- The cells a command writes: the writes column of 20_memory.md R100, and for `WRBUF` the accesses
it is permitted (42_buffer_param_access.md R192). -/
def writesCell (i : Instr) (space : Space) (n : Nat) : Bool :=
  match i with
  | .wrbuf sp idx _ => space == sp && n == idx.toNat && hostWritable sp
  | .fft => isSpectral space
  | .ifft => isSpectral space
  | .pack => space == .bs
  | .unpack => space == .fv
  | .encode => space == .fv || isSpectral space
  | .decode => space == .pcmo || isSpectral space
  | .encodebits => space == .fv || space == .bs || isSpectral space
  | .decodebits => space == .fv || space == .pcmo || isSpectral space
  | .sadd _ _ => false
  | .ssub _ _ => false
  | .smul _ _ => false
  | .sshl _ _ => false
  | .sshr _ _ => false
  | .rdbuf _ _ => false
  | .rdparam _ => false

/-- The response of a command that was performed and gives no result (30_encoding.md R112). -/
def okDone : Response := { st := .ok, sat := false, y := 0 }

/-- The registers in which an encoding and a decoding instance agree (49_frame_commands.md R341). -/
structure Tracks (e d : State) : Prop where
  /-- `W0` -/
  w0 : e.psrf.w0 = d.psrf.w0
  /-- `L` -/
  l : e.psrf.l = d.psrf.l
  /-- `K` -/
  k : e.psrf.k = d.psrf.k
  /-- `V` -/
  v : e.psrf.v = d.psrf.v
  /-- `M` -/
  m : e.psrf.m = d.psrf.m
  /-- `W0P` -/
  w0p : e.psrf.w0p = d.psrf.w0p
  /-- `LP` -/
  lp : e.psrf.lp = d.psrf.lp
  /-- `KP` -/
  kp : e.psrf.kp = d.psrf.kp
  /-- `VP` -/
  vp : e.psrf.vp = d.psrf.vp
  /-- `MP` -/
  mp : e.psrf.mp = d.psrf.mp

/-- The state with another frame vector in `FV`, as a host can write it cell by cell. -/
def State.withFV (s : State) (fv : Vector Word 8) : State := { s with bufs := { s.bufs with fv := fv } }

end Sys2Proof.Machine
end

