-- ==== Sys2Proof/Certificates/Slice0/Obligations.lean ====
section
/-! DEFINITION. The statements for the provers. Each docstring names the rules of spec/ the statement
formalises. A statement about a command's result has as its conclusion that `exec` answers a next
state, so it is also where the command completes. -/

open Sys2Proof Sys2Proof.Machine

/-! ### Packets, decoding and encoding -/

/-- Decoding the packet of a command gives the command back, with every operand (30_encoding.md R119). -/
def Obligations.DecodeOfEncodeIsIdentity : Prop := ∀ i : Instr, decode (encode i) = .ok i

/-- The opcode map is complete and unambiguous (R119, R120): a word that selects a row decodes to that
row's command, a word that selects none is rejected, and no word selects two rows. -/
def Obligations.OpcodeMapIsTheDecoder : Prop :=
  (∀ p : Packet, ∀ r ∈ opcodeMap, r.selects p.cw = true →
    ∃ i, decode p = .ok i ∧ mnemonicOf i = r.mnemonic) ∧
  (∀ p : Packet, legalCW p.cw = false → ∃ e, decode p = .error e) ∧
  (∀ w : Word, ∀ r ∈ opcodeMap, ∀ q ∈ opcodeMap, r.selects w = true → q.selects w = true → r = q)

/-- The other direction, and the ignored operand words (R111): a packet that decodes to `i` carries
`i`'s command word and the operand words `i` uses, and the words it does not use may hold anything. -/
def Obligations.DecodedPacketCarriesItsOperands : Prop :=
  ∀ (p : Packet) (i : Instr), decode p = .ok i →
    (encode i).cw = p.cw ∧
    (usesA i = true → (encode i).a = p.a) ∧ (usesB i = true → (encode i).b = p.b) ∧
    (usesA i = false → ∀ a, decode { p with a := a } = .ok i) ∧
    (usesB i = false → ∀ b, decode { p with b := b } = .ok i)

/-- The illegal words of R120, class by class, are rejected: class 0 with `funct` 5 to 15 or a non-zero
low byte, class 2 with `funct` 8 to 15 or a non-zero low byte, class 3 with `CW[11:8]` not zero,
classes 4 to 15. Every other word decodes. -/
def Obligations.IllegalWordsAreExactlyTheReserved : Prop :=
  ∀ p : Packet,
    let cls := p.cw.toNat / 4096
    let funct := p.cw.toNat / 256 % 16
    let low := p.cw.toNat % 256
    (∃ e, decode p = .error e) ↔
      (cls = 0 ∧ (5 ≤ funct ∨ low ≠ 0)) ∨ (cls = 2 ∧ (8 ≤ funct ∨ low ≠ 0)) ∨
      (cls = 3 ∧ funct ≠ 0) ∨ 4 ≤ cls

/-- A few words written out from R119 decode to the commands they stand for (a sanity statement). -/
def Obligations.SampleWordsDecode : Prop :=
  decode ⟨0x0000, 0x7530, 0x2710⟩ = .ok (.sadd 30000 10000) ∧
  decode ⟨0x1805, 0xFF85, 0x0000⟩ = .ok (.wrbuf .pcmi 5 0xFF85) ∧
  decode ⟨0x130B, 0x0000, 0x0000⟩ = .ok (.rdbuf .bs 11) ∧
  decode ⟨0x2300, 0x0000, 0x0000⟩ = .ok .decodebits ∧
  decode ⟨0x3004, 0x0000, 0x0000⟩ = .ok (.rdparam 4) ∧
  decode ⟨0x2800, 0x0000, 0x0000⟩ = .error .frameFunct

/-- The fields of the 48-bit packet and of the 19-bit response (R111, R112). -/
def Obligations.PacketAndResponseFields : Prop :=
  (∀ p : BitVec 48, (Packet.ofBits p).cw.toNat = p.toNat / 2 ^ 32 ∧
    (Packet.ofBits p).a.toNat = p.toNat / 2 ^ 16 % 2 ^ 16 ∧
    (Packet.ofBits p).b.toNat = p.toNat % 2 ^ 16) ∧
  (∀ r : Response, r.bits.toNat / 2 ^ 17 = r.st.code.toNat ∧
    r.bits.toNat / 2 ^ 16 % 2 = r.sat.toNat ∧ r.bits.toNat % 2 ^ 16 = r.y.toNat)

/-! ### The step, the responses, reset -/

/-- A packet whose word is legal runs its command on the state with the packet taken off the port. -/
def Obligations.StepRunsTheDecodedCommand : Prop :=
  ∀ (s : State) (p : Packet) (rest : List HostMove) (i : Instr),
    s.inbox = .packet p :: rest → decode p = .ok i → step s = exec i { s with inbox := rest }

/-- Every packet is answered: one step takes it and gives one response (60_exceptions.md R364,
30_encoding.md R121). -/
def Obligations.EveryPacketIsAnswered : Prop :=
  ∀ (s : State) (p : Packet) (rest : List HostMove), s.inbox = .packet p :: rest →
    ∃ t r, step s = .next t ∧ t.inbox = rest ∧ t.response = some r

/-- Exactly one status, in the order `ILLEGAL`, `BAD_ADDRESS`, `ACCESS` (60_exceptions.md R354), read
off the command word's bits. -/
def Obligations.StatusPriority : Prop :=
  ∀ (s : State) (p : Packet) (rest : List HostMove), s.inbox = .packet p :: rest →
    let cls := p.cw.toNat / 4096
    let dir := p.cw.toNat / 2048 % 2
    let space := p.cw.toNat / 256 % 8
    let low := p.cw.toNat % 256
    let size := [160, 160, 8, 11, 256, 256].getD space 0
    ∃ t sat y, step s = .next t ∧
      t.response = some
        { st :=
            if legalCW p.cw = false then .illegal
            else if (cls = 1 ∧ size ≤ low) ∨ (cls = 3 ∧ 5 ≤ low) then .badAddress
            else if cls = 1 ∧ dir = 1 ∧ space = 1 then .access
            else .ok
          sat := sat
          y := y }

/-- An error response changes nothing: the state after it is the state before the packet, and `Y` and
`SAT` are 0 (60_exceptions.md R351). -/
def Obligations.ErrorResponseChangesNothing : Prop :=
  ∀ (s t : State) (p : Packet) (rest : List HostMove) (r : Response),
    s.inbox = .packet p :: rest → step s = .next t → t.response = some r → r.st ≠ .ok →
    t = { s with inbox := rest, response := some { st := r.st, sat := false, y := 0 } }

/-- Which command can raise what (60_exceptions.md R352, R353, R355). -/
def Obligations.ErrorsOfEveryCommand : Prop :=
  ∀ (i : Instr) (s : State), ∃ t r, exec i s = .next t ∧ t.response = some r ∧
    r.st ≠ .illegal ∧
    (r.st = .badAddress ↔
      (∃ space index, (i = .rdbuf space index ∨ ∃ data, i = .wrbuf space index data) ∧
        (space = .absent6 ∨ space = .absent7 ∨
          (160 ≤ index.toNat ∧ (space = .pcmi ∨ space = .pcmo)) ∨
          (8 ≤ index.toNat ∧ space = .fv) ∨ (11 ≤ index.toNat ∧ space = .bs))) ∨
      ∃ sel : BitVec 8, i = .rdparam sel ∧ 5 ≤ sel.toNat) ∧
    (r.st = .access ↔ ∃ index data, i = .wrbuf .pcmo index data ∧ index.toNat < 160)

/-- With no move of the host waiting nothing happens (60_exceptions.md R358, R369; the step that does
nothing is the model's, log entry 4). -/
def Obligations.IdleStepKeepsTheState : Prop :=
  ∀ s : State, s.inbox = [] → step s = .next s

/-- Reset gives every register and every cell its reset value, whatever the state before
(70_reset_and_hazards.md R380). -/
def Obligations.ResetValues : Prop :=
  ∀ (s : State) (rest : List HostMove), s.inbox = .reset :: rest →
    ∃ t, step s = .next t ∧
      t.psrf.w0.toNat = 2 ^ 34 / (2 * Config.cfg.p2Min + 1) ∧ t.psrf.l = 9 ∧ t.psrf.k = 3 ∧
      t.psrf.seed.toNat = Config.cfg.noiseSeed0 ∧ t.psrf.v = 0 ∧
      t.psrf.w0p = 0 ∧ t.psrf.lp = 0 ∧ t.psrf.kp = 0 ∧ t.psrf.vp = 0 ∧
      t.psrf.pc = 0 ∧ t.psrf.pp1 = 0 ∧ t.psrf.pp2 = 0 ∧ t.psrf.thmax = 0 ∧ t.psrf.reserved = 0 ∧
      (∀ i : Fin 56, t.psrf.m[i] = 0 ∧ t.psrf.mp[i] = 0 ∧ t.psrf.ph[i] = 0) ∧
      (∀ i : Fin 96, t.psrf.uvt[i] = 0) ∧
      (∀ space n, t.bufs.readCell space n = 0)

/-! ### The arithmetic unit -/

/-- `SADD`: the exact sum clamped, `SAT` when it was out of range, nothing else changed (40_alu.md
R142). -/
def Obligations.SaddAnswersTheClampedSum : Prop :=
  ∀ (a b : Word) (s : State),
    decode ⟨0x0000, a, b⟩ = .ok (.sadd a b) ∧
    exec (.sadd a b) s = .next { s with
      response := some
        { st := .ok
          sat := decide (a.toInt + b.toInt < -32768 ∨ 32767 < a.toInt + b.toInt)
          y := BitVec.ofInt 16 (max (-32768) (min 32767 (a.toInt + b.toInt))) } }

/-- `SSUB`: the exact difference clamped (40_alu.md R143). -/
def Obligations.SsubAnswersTheClampedDifference : Prop :=
  ∀ (a b : Word) (s : State),
    decode ⟨0x0100, a, b⟩ = .ok (.ssub a b) ∧
    exec (.ssub a b) s = .next { s with
      response := some
        { st := .ok
          sat := decide (a.toInt - b.toInt < -32768 ∨ 32767 < a.toInt - b.toInt)
          y := BitVec.ofInt 16 (max (-32768) (min 32767 (a.toInt - b.toInt))) } }

/-- `SMUL`: the Q15 product floored and clamped; only -32768 times -32768 saturates (40_alu.md R144). -/
def Obligations.SmulAnswersTheFlooredProduct : Prop :=
  ∀ (a b : Word) (s : State),
    decode ⟨0x0200, a, b⟩ = .ok (.smul a b) ∧
    exec (.smul a b) s = .next { s with
      response := some
        { st := .ok
          sat := decide (a.toInt = -32768 ∧ b.toInt = -32768)
          y := BitVec.ofInt 16 (min 32767 (Int.fdiv (a.toInt * b.toInt) 32768)) } }

/-- `SSHL`: the exact shift by a signed count, clamped, the count not reduced (40_alu.md R145). -/
def Obligations.SshlAnswersTheClampedShift : Prop :=
  ∀ (a n : Word) (s : State),
    let exact := if 0 ≤ n.toInt then a.toInt * 2 ^ n.toInt.toNat
      else Int.fdiv a.toInt (2 ^ (-n.toInt).toNat)
    decode ⟨0x0300, a, n⟩ = .ok (.sshl a n) ∧
    exec (.sshl a n) s = .next { s with
      response := some
        { st := .ok
          sat := decide (exact < -32768 ∨ 32767 < exact)
          y := BitVec.ofInt 16 (max (-32768) (min 32767 exact)) } }

/-- `SSHR`: the shift the other way, and the equation with `SSHL` (40_alu.md R146). -/
def Obligations.SshrAnswersTheClampedShift : Prop :=
  ∀ (a n : Word) (s : State),
    let exact := if 0 ≤ n.toInt then Int.fdiv a.toInt (2 ^ n.toInt.toNat)
      else a.toInt * 2 ^ (-n.toInt).toNat
    decode ⟨0x0400, a, n⟩ = .ok (.sshr a n) ∧
    exec (.sshr a n) s = .next { s with
      response := some
        { st := .ok
          sat := decide (exact < -32768 ∨ 32767 < exact)
          y := BitVec.ofInt 16 (max (-32768) (min 32767 exact)) } } ∧
    exactShr a n = shiftExact a.toInt (-n.toInt)

/-- `LOG2Q` and `EXP2Q` (40_alu.md R150, R151): their ranges, that `LOG2Q` is non-decreasing, and that
`EXP2Q(LOG2Q(x)) <= x` for `x >= 1`. -/
def Obligations.LogAndAntilogBounds : Prop :=
  (∀ x y : Nat, x ≤ y → y ≤ 32767 → log2Q x ≤ log2Q y) ∧
  (∀ x : Nat, x ≤ 32767 → log2Q x ≤ 3839) ∧
  (∀ v : Nat, v ≤ 3839 → exp2Q v ≤ 32704) ∧
  (∀ x : Nat, 1 ≤ x → x ≤ 32767 → exp2Q (log2Q x) ≤ x)

/-- `isqrt(v)` is the largest integer whose square is at most `v` (00_scope.md R14). -/
def Obligations.IsqrtIsTheLargestRoot : Prop :=
  ∀ v : Nat, isqrt v * isqrt v ≤ v ∧ ∀ r : Nat, r * r ≤ v → r ≤ isqrt v

/-! ### Buffer access and the parameter view -/

/-- `RDBUF`: the cell, zero-extended in `BS`, or `BAD_ADDRESS` where there is no cell; nothing but the
response changes (42_buffer_param_access.md R191). -/
def Obligations.RdbufAnswersTheCell : Prop :=
  ∀ (space : Space) (index : BitVec 8) (a b : Word) (s : State),
    decode ⟨0x1000 + 256 * space.num.setWidth 16 + index.setWidth 16, a, b⟩ = .ok (.rdbuf space index) ∧
    exec (.rdbuf space index) s = .next { s with
      response := some
        (if index.toNat < spaceSize space then
          { st := .ok, sat := false, y := s.bufs.readCell space index.toNat }
        else { st := .badAddress, sat := false, y := 0 }) } ∧
    (space = .bs → (s.bufs.readCell space index.toNat).toNat < 256)

/-- `WRBUF`: `BAD_ADDRESS` where there is no cell, checked first, `ACCESS` for `PCMO`, and both change
nothing; otherwise it stores `A`, or `A[7:0]` in `BS`, leaves every other cell and the PSRF as they
were, and a later read gives what was stored (R192). -/
def Obligations.WrbufWritesOneCell : Prop :=
  ∀ (space : Space) (index : BitVec 8) (data b : Word) (s : State),
    decode ⟨0x1800 + 256 * space.num.setWidth 16 + index.setWidth 16, data, b⟩ =
      .ok (.wrbuf space index data) ∧
    (spaceSize space ≤ index.toNat → exec (.wrbuf space index data) s = .next { s with
      response := some { st := .badAddress, sat := false, y := 0 } }) ∧
    (index.toNat < spaceSize space → space = .pcmo → exec (.wrbuf space index data) s = .next { s with
      response := some { st := .access, sat := false, y := 0 } }) ∧
    (index.toNat < spaceSize space → space ≠ .pcmo →
      ∃ t, exec (.wrbuf space index data) s = .next t ∧ t.psrf = s.psrf ∧ t.inbox = s.inbox ∧
        t.response = some okDone ∧
        (t.bufs.readCell space index.toNat).toNat =
          (if space = .bs then data.toNat % 256 else data.toNat) ∧
        (∀ sp n, ¬(sp = space ∧ n = index.toNat) → t.bufs.readCell sp n = s.bufs.readCell sp n))

/-- `RDPARAM` answers the word of the view for `sel` 0 to 4 and `BAD_ADDRESS` above, and changes nothing
(R194). -/
def Obligations.RdparamAnswersTheViewWord : Prop :=
  ∀ (sel : BitVec 8) (a b : Word) (s : State),
    decode ⟨0x3000 + sel.setWidth 16, a, b⟩ = .ok (.rdparam sel) ∧
    (5 ≤ sel.toNat → exec (.rdparam sel) s = .next { s with
      response := some { st := .badAddress, sat := false, y := 0 } }) ∧
    (sel.toNat < 5 → ∃ y, exec (.rdparam sel) s = .next { s with
        response := some { st := .ok, sat := false, y := y } } ∧
      (sel = 0 → y.toNat = s.psrf.w0.toNat % 65536) ∧
      (sel = 1 → y.toNat = s.psrf.w0.toNat / 65536) ∧
      (sel = 2 → y = s.psrf.l) ∧ (sel = 3 → y = s.psrf.k) ∧ (sel = 4 → y = s.psrf.v))

/-! ### The bit packer -/

/-- `PACK` stores bit `b` of field `f` at bit position `START[f] + (w - 1 - b)`, position `i` being byte
`i >> 3` under mask `0x80 >> (i & 7)`, and changes nothing but `BS` (43_bitpacker.md R211, R212). -/
def Obligations.PackPlacesEveryBit : Prop :=
  ∀ (opA opB : Word) (s : State), decode ⟨0x2400, opA, opB⟩ = .ok .pack ∧
    ∃ t, exec .pack s = .next t ∧ t.psrf = s.psrf ∧ t.inbox = s.inbox ∧
    t.response = some okDone ∧ (∀ sp n, sp ≠ .bs → t.bufs.readCell sp n = s.bufs.readCell sp n) ∧
    ∀ (f : Fin 8) (b : Nat), b < fieldWidth f →
      let i := fieldStart f + (fieldWidth f - 1 - b)
      (cellD t.bufs.bs (i / 8) 0).getLsbD (7 - i % 8) = s.bufs.fv[f].getLsbD b

/-- `UNPACK` reads the same bits back, gives a valid frame vector whatever `BS` holds, and changes
nothing but `FV` (43_bitpacker.md R211, R213). -/
def Obligations.UnpackReadsEveryBit : Prop :=
  ∀ (opA opB : Word) (s : State), decode ⟨0x2500, opA, opB⟩ = .ok .unpack ∧
    ∃ t, exec .unpack s = .next t ∧ t.psrf = s.psrf ∧ t.inbox = s.inbox ∧
    t.response = some okDone ∧ (∀ sp n, sp ≠ .fv → t.bufs.readCell sp n = s.bufs.readCell sp n) ∧
    validFV t.bufs.fv = true ∧
    ∀ (f : Fin 8) (b : Nat), b < fieldWidth f →
      let i := fieldStart f + (fieldWidth f - 1 - b)
      t.bufs.fv[f].getLsbD b = (cellD s.bufs.bs (i / 8) 0).getLsbD (7 - i % 8)

/-- Losslessness both ways (43_bitpacker.md R214): `PACK` then `UNPACK` leaves every cell modulo its
field's width, so a valid frame vector as it was, and `UNPACK` then `PACK` leaves `BS` as it was. -/
def Obligations.PackerIsLossless : Prop :=
  (∀ s : State, ∃ t u, exec .pack s = .next t ∧ exec .unpack t = .next u ∧
    (∀ f : Fin 8, u.bufs.fv[f].toNat = s.bufs.fv[f].toNat % 2 ^ fieldWidth f) ∧
    (validFV s.bufs.fv = true → u.bufs.fv = s.bufs.fv)) ∧
  (∀ s : State, ∃ t u, exec .unpack s = .next t ∧ exec .pack t = .next u ∧ u.bufs.bs = s.bufs.bs)

/-! ### The transform -/

/-- `FFT` and `IFFT` write the spectral buffer alone, answer `Y` = 0, `SAT` = 0, `ST` = 0, and leave an
all-zero buffer all zero (41_fft.md R175, R176). -/
def Obligations.TransformsCompleteAndKeepZero : Prop :=
  ∀ (i : Instr), (i = .fft ∨ i = .ifft) → ∀ s : State,
    ∃ t, exec i s = .next t ∧ t.psrf = s.psrf ∧ t.inbox = s.inbox ∧ t.response = some okDone ∧
      (∀ sp n, sp ≠ .spr → sp ≠ .spi → t.bufs.readCell sp n = s.bufs.readCell sp n) ∧
      ((∀ k : Fin 256, s.bufs.spr[k] = 0 ∧ s.bufs.spi[k] = 0) →
        ∀ k : Fin 256, t.bufs.spr[k] = 0 ∧ t.bufs.spi[k] = 0)

/-- The transforms of an impulse of any height `a` in cell 0 are flat: `FFT` leaves `a` halved eight times
with floor in every real part, `IFFT`, which does not scale, leaves `a` itself, and both leave 0 in
every imaginary part (41_fft.md R173, R175, R176). -/
def Obligations.FftOfAnImpulseIsFlat : Prop :=
  ∀ (s : State) (a : Word),
    (∀ k : Fin 256, s.bufs.spr[k] = (if k.val = 0 then a else 0) ∧ s.bufs.spi[k] = 0) →
    ∃ t u, exec .fft s = .next t ∧ exec .ifft s = .next u ∧
      ∀ k : Fin 256, t.bufs.spr[k].toInt = Int.fdiv a.toInt 256 ∧ t.bufs.spi[k] = 0 ∧
        u.bufs.spr[k] = a ∧ u.bufs.spi[k] = 0

/-- The forward butterfly halves both its inputs, the upper one and the rotated lower one, with floor, and
its four results are the exact sums and differences of these halves: none of them clamps (41_fft.md
R173, R174). -/
def Obligations.ForwardButterflyHalvesNeverClamp : Prop :=
  ∀ a b w : Word × Word,
    let half := fun x : Word => Int.fdiv x.toInt 2
    let tr := ssub (smul b.1 w.1) (smul b.2 w.2)
    let ti := sadd (smul b.1 w.2) (smul b.2 w.1)
    let y := butterfly false a b w
    y.1.1.toInt = half a.1 + half tr ∧ y.1.2.toInt = half a.2 + half ti ∧
      y.2.1.toInt = half a.1 - half tr ∧ y.2.2.toInt = half a.2 - half ti

/-- The sine table is bounded so that its negation is exact, odd over the half turn, and periodic; bit
reversal is its own inverse (41_fft.md R171, R172). -/
def Obligations.SineTableAndBitReversal : Prop :=
  (∀ k : Nat, -32767 ≤ sinVal k ∧ sinVal k ≤ 32767 ∧ sinVal (k + 128) = -sinVal k ∧
    sinVal (k + 256) = sinVal k) ∧
  (∀ i : Nat, i < 256 → bitrev8 i < 256 ∧ bitrev8 (bitrev8 i) = i)

/-! ### Fundamental frequency, bands, bins, pitch -/

/-- `W0TAB` is below 2^32, at least 2^17, and strictly decreasing over the pitch indices, for every
well-formed `Cfg` (44_pitch.md R226). -/
def Obligations.FrequencyTableIsDecreasing : Prop :=
  ∀ c : Cfg, c.wf = true →
    (∀ b : Nat, b ≤ c.b0Max → w0Tab c.p2Min b = 2 ^ 34 / (2 * (b + c.p2Min) + 1) ∧
      2 ^ 17 ≤ w0Tab c.p2Min b ∧ w0Tab c.p2Min b < 2 ^ 32) ∧
    ∀ b : Nat, b + 1 ≤ c.b0Max → w0Tab c.p2Min (b + 1) < w0Tab c.p2Min b

/-- `DeriveLK` stays in 9..56 and 3..12, and with its result every band holds a harmonic (44_pitch.md
R227, R229). -/
def Obligations.DerivedCountsAndBands : Prop :=
  ∀ w0 : Nat, 0 < w0 →
    9 ≤ (deriveLK w0).1 ∧ (deriveLK w0).1 ≤ 56 ∧ 3 ≤ (deriveLK w0).2 ∧ (deriveLK w0).2 ≤ 12 ∧
    ∀ k < (deriveLK w0).2, ∃ l, 1 ≤ l ∧ l ≤ (deriveLK w0).1 ∧ band l (deriveLK w0).2 = k

/-- The harmonic intervals tile the spectrum: each begins where the one before ends unless the cap
applies, no bin has two owners, and the central half lies inside (44_pitch.md R230, R252). -/
def Obligations.HarmonicIntervalsTile : Prop :=
  ∀ l w0 : Nat, 1 ≤ l →
    (binHi l w0 = binLo (l + 1) w0 ∨ (binHi l w0 = 128 ∧ 128 ≤ binLo (l + 1) w0)) ∧
    binLo l w0 ≤ cenLo l w0 ∧
    ∀ l' m : Nat, 1 ≤ l' → binLo l w0 ≤ m → m < binHi l w0 → binLo l' w0 ≤ m → m < binHi l' w0 →
      l = l'

/-- A single jump of the raw estimate is absorbed: when the two history values agree, the encoded pitch
index is their value whatever the samples are (44_pitch.md R235). -/
def Obligations.MedianAbsorbsASingleJump : Prop :=
  ∀ s : State, s.psrf.pc = s.psrf.pp1 → s.psrf.pc.toNat ≤ Config.cfg.b0Max →
    ∃ t, exec .encode s = .next t ∧ t.bufs.fv[0] = s.psrf.pc

/-- The coarse search keeps the smaller lag on a tie: the lag it returns lies in the range, has `r > 0`,
no lag has a greater normalized value, and no smaller lag an equal one; it returns none exactly when
no lag has `r > 0`; for every well-formed `Cfg` (44_pitch.md R232). -/
def Obligations.CoarseSearchIsTheFirstBest : Prop :=
  ∀ (c : Cfg), c.wf = true → ∀ (x : Nat → Int),
    (coarseSearch c x = none ↔ ∀ p : Nat, c.lagMin ≤ p → p ≤ c.lagMax → autoCorr x p ≤ 0) ∧
    ∀ b : Nat × Int × Int, coarseSearch c x = some b →
      c.lagMin ≤ b.1 ∧ b.1 ≤ c.lagMax ∧ 0 < autoCorr x b.1 ∧
      ∀ p : Nat, c.lagMin ≤ p → p ≤ c.lagMax → 0 < autoCorr x p →
        (autoCorr x p) ^ 2 * (energyLate x b.1 * energyEarly x b.1) ≤
          (autoCorr x b.1) ^ 2 * (energyLate x p * energyEarly x p) ∧
        (p < b.1 → (autoCorr x p) ^ 2 * (energyLate x b.1 * energyEarly x b.1) <
          (autoCorr x b.1) ^ 2 * (energyLate x p * energyEarly x p))

/-- Encoding an all-zero frame: no pitch candidate, so the history value is the previous one
(44_pitch.md R234); every band error is 32767, so `THMAX` is 32767 and no band is voiced
(45_voicing.md R253 to R255). -/
def Obligations.EncodingSilence : Prop :=
  ∀ s : State, (∀ i : Fin 160, s.bufs.pcmi[i] = 0) → s.psrf.pc.toNat ≤ Config.cfg.b0Max →
    ∃ t, exec .encode s = .next t ∧ t.psrf.pc = s.psrf.pc ∧ t.psrf.thmax = 32767 ∧
      t.bufs.fv[1] = 0 ∧ t.psrf.v = 0 ∧ ∀ k : Fin 256, t.bufs.spr[k] = 0 ∧ t.bufs.spi[k] = 0

/-- The voicing word has bit `k` set exactly for the bands whose error is strictly below the threshold,
and every other bit clear (45_voicing.md R255, 10_state.md R38). After `ENCODE`, with the band errors
of the analysis spectrum it leaves in `SPR` and `SPI`, `THMAX` is the larger of the largest error and
the old `THMAX` times `TH_DECAY` (R254), and `FV[1]` is the voicing word for the threshold formed from
the new `THMAX`, the larger of `TH_MIN` and `THMAX` times `TH_SCALE` (R255). -/
def Obligations.VoicedBandsAreThoseBelowTheThreshold : Prop :=
  (∀ (theta : Int) (errors : List Nat) (k : Nat),
    (voicingWord theta errors).testBit k =
      decide (k < errors.length ∧ (errors.getD k 0 : Int) < theta)) ∧
  ∀ s : State, ∃ t, exec .encode s = .next t ∧
    let errors := bandErrors (binEnergies (t.bufs.spr, t.bufs.spi)) t.psrf.w0.toNat t.psrf.l.toNat
      t.psrf.k.toNat
    let decayed := Int.fdiv (s.psrf.thmax.toInt * Config.cfg.thDecay.toInt) 32768
    let theta := max Config.cfg.thMin.toInt
      (Int.fdiv (t.psrf.thmax.toInt * Config.cfg.thScale.toInt) 32768)
    errors.length = t.psrf.k.toNat ∧
    (∀ k : Nat, (errors.getD k 0 : Int) ≤ t.psrf.thmax.toInt) ∧ decayed ≤ t.psrf.thmax.toInt ∧
    (t.psrf.thmax.toInt = decayed ∨
      ∃ k, k < errors.length ∧ t.psrf.thmax.toInt = (errors.getD k 0 : Int)) ∧
    ∀ k : Nat, t.bufs.fv[1].getLsbD k = decide (k < errors.length ∧ (errors.getD k 0 : Int) < theta)

/-! ### Amplitudes -/

/-- The prediction has one term per harmonic, each in -3839..3839, whatever the previous frame held, for
every well-formed `Cfg` (46_amplitude.md R267). For previous amplitudes in 0..32767 and counts up to 56
the bound is the spec's; for an amplitude word with its sign bit set and for a count above 56, which no
run meets, it is the model's choice (log entry 9: both read as 0). -/
def Obligations.PredictionIsBounded : Prop :=
  ∀ c : Cfg, c.wf = true → ∀ (mp : Vector Word 56) (lp len : Nat),
    (predict c mp lp len).length = len ∧ ∀ x ∈ predict c mp lp len, -3839 ≤ x ∧ x ≤ 3839

/-- `nearest(tab, n, t)` is the smallest index in 0..`n`-1 at which `abs(tab[i] - t)` is least
(46_amplitude.md R268). -/
def Obligations.NearestIsTheFirstNearest : Prop :=
  ∀ (tab : List Word) (n : Nat) (t : Int), 1 ≤ n → n ≤ tab.length →
    let dist := fun i => |(tab.getD i 0).toInt - t|
    nearest tab n t < n ∧ (∀ j < n, dist (nearest tab n t) ≤ dist j) ∧
      ∀ j < nearest tab n t, dist (nearest tab n t) < dist j

/-- The amplitude bit string carries every band index: laid in by R271 and read back by R272, at the
positions the voicing word gives, it never exceeds 52 bits and survives the cut into fields 3 to 7. -/
def Obligations.AmplitudeStringRoundTrip : Prop :=
  ∀ (v : Word) (idx : List Nat), idx.length ≤ 12 →
    (∀ kk < idx.length, idx.getD kk 0 < 2 ^ indexBits Config.cfg v kk) →
    let s := amplitudeString Config.cfg v idx
    s < 2 ^ 52 ∧
    (∀ kk < idx.length,
      s / 2 ^ bandPos Config.cfg v kk % 2 ^ indexBits Config.cfg v kk = idx.getD kk 0) ∧
    ∀ head : List Nat, head.length = 3 → frameString (frameVector (head ++ stringFields s)) = s

/-- The bounds of the enhancement: no amplitude grows by more than `ENH_MAX / 16384` or shrinks below
`ENH_MIN / 16384` of itself, and a flat spectrum is unchanged (46_amplitude.md R284). -/
def Obligations.EnhancementIsBounded : Prop :=
  (∀ (mq : List Nat) (len l : Nat), quantAmp mq l ≤ 32767 →
    quantAmp mq l * Config.cfg.enhMin.toNat / 2 ^ 14 ≤ enhanceAmp Config.cfg mq len l ∧
    enhanceAmp Config.cfg mq len l ≤
      min 32767 (quantAmp mq l * Config.cfg.enhMax.toNat / 2 ^ 14)) ∧
  ∀ (len c l : Nat), c ≤ 32767 → 1 ≤ l → l ≤ len →
    enhanceAmp Config.cfg (List.replicate len c) len l = c

/-- Silence stability of the amplitude path, one frame of the induction of 46_amplitude.md R285: from a
flat spectrum, decoding the zeroed frame vector gives nine harmonics, three bands, no voicing, and
the same constant in every harmonic. For a flat spectrum with the sign bit set, which no run meets, it
is the model's choice (log entry 9: such an amplitude reads as 0). -/
def Obligations.ZeroFrameKeepsAmplitudesFlat : Prop :=
  ∀ (s : State) (c : Word), (∀ f : Fin 8, s.bufs.fv[f] = 0) →
    1 ≤ s.psrf.l.toNat → s.psrf.l.toNat ≤ 56 →
    (∀ i : Fin 56, i.val < s.psrf.l.toNat → s.psrf.m[i] = c) →
    ∃ t, exec .decode s = .next t ∧ t.psrf.l = 9 ∧ t.psrf.k = 3 ∧ t.psrf.v = 0 ∧
      ∀ i : Fin 56, t.psrf.m[i].toNat =
        if i.val < 9 then
          exp2Q (max 0 (min 3839 ((Config.cfg.gainTab.getD 0 0).toInt +
            (Config.cfg.deqU.getD 0 0).toInt))).toNat
        else 0

/-! ### Synthesis -/

/-- The contribution of an oscillator is at most its amplitude in magnitude (47_voiced_synth.md R302). -/
def Obligations.OscillatorIsBoundedByItsAmplitude : Prop :=
  ∀ (a : Word) (phase : Word32), 0 ≤ a.toInt →
    -a.toInt ≤ (oscillator a phase).toInt ∧ (oscillator a phase).toInt ≤ a.toInt

/-- The phases after `DECODE`: slot `l` up to the new `L` has advanced by `l` times the sum of the 160
interpolated fundamentals, modulo 2^32, and the slots above are 0 (47_voiced_synth.md R297, R300). -/
def Obligations.DecodeAdvancesThePhases : Prop :=
  ∀ s : State, ∃ t, exec .decode s = .next t ∧
    ∀ i : Fin 56, t.psrf.ph[i].toNat =
      if i.val + 1 ≤ t.psrf.l.toNat then
        (s.psrf.ph[i].toNat + (i.val + 1) * ((List.range 160).map fun n =>
          (s.psrf.w0.toNat * (160 - n) + t.psrf.w0.toNat * n) / 160).sum) % 2 ^ 32
      else 0

/-- The noise seed after a decode command is 256 draws on, whatever the frame held
(48_unvoiced_synth.md R311, 10_state.md R42). -/
def Obligations.SeedAdvancesBy256Draws : Prop :=
  ∀ (i : Instr), (i = .decode ∨ i = .decodebits) → ∀ s : State,
    ∃ t, exec i s = .next t ∧ t.psrf.seed.toNat =
      (fun u => (Config.cfg.noiseA * u + Config.cfg.noiseC) % Config.cfg.noiseM)^[256]
        s.psrf.seed.toNat

/-- The spectral gain of a bin is the amplitude of the unvoiced harmonic that owns it, 0 where that
harmonic is voiced, where no harmonic owns the bin, and in bin 128 (48_unvoiced_synth.md R313). -/
def Obligations.SpectralGainIsTheOwnersAmplitude : Prop :=
  ∀ p : Psrf, p.l.toNat ≤ 56 →
    (∀ l m : Nat, 1 ≤ l → l ≤ p.l.toNat → binLo l p.w0.toNat ≤ m → m < binHi l p.w0.toNat →
      spectralGain p m =
        if voiced p.v (band l p.k.toNat) then 0 else (harmD p.m l 0).toInt) ∧
    (∀ m : Nat, (∀ l, 1 ≤ l → l ≤ p.l.toNat → ¬(binLo l p.w0.toNat ≤ m ∧ m < binHi l p.w0.toNat)) →
      spectralGain p m = 0) ∧
    spectralGain p 128 = 0

/-- With every band voiced the noise is silent: the spectral buffer and the new tail are 0, and the
output is the voiced part, with the old tail added at the head (48_unvoiced_synth.md R317, R318). -/
def Obligations.AllVoicedFrameHasNoNoise : Prop :=
  ∀ s : State, (∀ b < 12, s.bufs.fv[1].getLsbD b = true) →
    ∃ t, exec .decode s = .next t ∧
      (∀ i : Fin 96, t.psrf.uvt[i] = 0) ∧
      (∀ k : Fin 256, t.bufs.spr[k] = 0 ∧ t.bufs.spi[k] = 0) ∧
      ∀ i : Fin 160, t.bufs.pcmo[i] =
        sadd ((voicedSynth (decodedRegs Config.cfg s)).1.getD i 0) (cellD s.psrf.uvt i 0)

/-- With no voiced band in the previous frame or this one the voiced part is silent: the phases, however
they stand, do not reach the output (47_voiced_synth.md R302). -/
def Obligations.UnvoicedFrameIgnoresPhases : Prop :=
  ∀ (s : State) (ph : Vector Word32 56), s.psrf.v = 0 → s.bufs.fv[1] = 0 →
    ∃ t t', exec .decode s = .next t ∧
      exec .decode { s with psrf := { s.psrf with ph := ph } } = .next t' ∧
      t.bufs = t'.bufs ∧ t.psrf.uvt = t'.psrf.uvt ∧
      ∀ n : Fin 160, (voicedSynth (decodedRegs Config.cfg s)).1.getD n 0 = 0

/-- No feedback: the tail a frame leaves, and its samples from 96 on, do not depend on the tail it found
(48_unvoiced_synth.md R316, R319). -/
def Obligations.TailHasNoFeedback : Prop :=
  ∀ (s : State) (uvt : Vector Word 96),
    ∃ t t', exec .decode s = .next t ∧
      exec .decode { s with psrf := { s.psrf with uvt := uvt } } = .next t' ∧
      t.psrf = t'.psrf ∧ t.bufs.spr = t'.bufs.spr ∧ t.bufs.spi = t'.bufs.spi ∧
      ∀ n : Fin 160, 96 ≤ n.val → t.bufs.pcmo[n] = t'.bufs.pcmo[n]

/-! ### The frame commands -/

/-- The frame shift, in all four frame commands: the shadow copies hold the registers of the frame
before (49_frame_commands.md R331). -/
def Obligations.FrameCommandsShiftTheShadows : Prop :=
  ∀ i : Instr, isFrameCommand i = true → ∀ s : State,
    ∃ t, exec i s = .next t ∧ t.psrf.pp2 = s.psrf.pp1 ∧ t.psrf.pp1 = s.psrf.pc ∧
      t.psrf.w0p = s.psrf.w0 ∧ t.psrf.lp = s.psrf.l ∧ t.psrf.kp = s.psrf.k ∧
      t.psrf.vp = s.psrf.v ∧ t.psrf.mp = s.psrf.m

/-- After every frame command, from any state, the counts are those of the fundamental frequency, the
flags and amplitudes stay inside them (10_state.md R37, R38, R39). -/
def Obligations.FrameCommandsKeepCountsConsistent : Prop :=
  ∀ i : Instr, isFrameCommand i = true → ∀ s : State,
    ∃ t, exec i s = .next t ∧ (t.psrf.l.toNat, t.psrf.k.toNat) = deriveLK t.psrf.w0.toNat ∧
      9 ≤ t.psrf.l.toNat ∧ t.psrf.l.toNat ≤ 56 ∧ 3 ≤ t.psrf.k.toNat ∧ t.psrf.k.toNat ≤ 12 ∧
      t.psrf.v.toNat < 2 ^ t.psrf.k.toNat ∧
      (∃ b, b ≤ Config.cfg.b0Max ∧ t.psrf.w0.toNat = w0Tab Config.cfg.p2Min b) ∧
      ∀ j : Fin 56, t.psrf.m[j].toNat ≤ 32767 ∧ (t.psrf.l.toNat ≤ j.val → t.psrf.m[j] = 0)

/-- `ENCODE` completes and writes a valid frame vector whose pitch and gain indices are in range and
whose voicing word fits the band count; the registers follow the frame vector; `PCMI`, `PCMO`, `BS`,
`SEED`, `PH`, `UVT` are not touched (49_frame_commands.md R332, R334). -/
def Obligations.EncodeCompletesWithAValidFrame : Prop :=
  ∀ s : State, ∃ t, exec .encode s = .next t ∧ t.response = some okDone ∧ t.inbox = s.inbox ∧
    validFV t.bufs.fv = true ∧ t.bufs.fv[0].toNat ≤ Config.cfg.b0Max ∧
    t.bufs.fv[1] = t.psrf.v ∧ t.bufs.fv[2].toNat < Config.cfg.gainN ∧
    t.psrf.w0.toNat = w0Tab Config.cfg.p2Min t.bufs.fv[0].toNat ∧
    t.psrf.pc.toNat ≤ Config.cfg.b0Max ∧ t.psrf.thmax.toNat ≤ 32767 ∧
    t.bufs.pcmi = s.bufs.pcmi ∧ t.bufs.pcmo = s.bufs.pcmo ∧ t.bufs.bs = s.bufs.bs ∧
    t.psrf.seed = s.psrf.seed ∧ t.psrf.ph = s.psrf.ph ∧ t.psrf.uvt = s.psrf.uvt ∧
    t.psrf.reserved = s.psrf.reserved

/-- `DECODE` completes on every content of `FV`: the pitch index is clamped on the whole cell, the
voicing word masked to the band count, and the gain index is clamped on the whole cell and words 3 to
7 masked to their widths: `DECODE` of the vector so reduced gives the same registers, output and
spectral buffer. `FV`, `PCMI`, `BS` and `THMAX` are not touched (46_amplitude.md R272,
49_frame_commands.md R333, R335). -/
def Obligations.DecodeCompletesOnEveryFrameVector : Prop :=
  ∀ s : State, ∃ t, exec .decode s = .next t ∧ t.response = some okDone ∧ t.inbox = s.inbox ∧
    t.psrf.pc.toNat = min s.bufs.fv[0].toNat Config.cfg.b0Max ∧
    t.psrf.w0.toNat = 2 ^ 34 / (2 * (t.psrf.pc.toNat + Config.cfg.p2Min) + 1) ∧
    t.psrf.v.toNat = s.bufs.fv[1].toNat % 2 ^ t.psrf.k.toNat ∧
    t.bufs.fv = s.bufs.fv ∧ t.bufs.pcmi = s.bufs.pcmi ∧ t.bufs.bs = s.bufs.bs ∧
    t.psrf.thmax = s.psrf.thmax ∧ t.psrf.reserved = s.psrf.reserved ∧
    let reduced : Vector Word 8 := Vector.ofFn fun f => BitVec.ofNat 16
      (if f.val = 0 then min s.bufs.fv[0].toNat Config.cfg.b0Max
      else if f.val = 1 then s.bufs.fv[1].toNat % 2 ^ t.psrf.k.toNat
      else if f.val = 2 then min s.bufs.fv[2].toNat (Config.cfg.gainN - 1)
      else s.bufs.fv[f].toNat % 2 ^ fieldWidth f.val)
    ∃ u, exec .decode (s.withFV reduced) = .next u ∧ u.psrf = t.psrf ∧
      u.bufs.pcmo = t.bufs.pcmo ∧ u.bufs.spr = t.bufs.spr ∧ u.bufs.spi = t.bufs.spi

/-- `ENCODEBITS` is `ENCODE` followed by `PACK` as one command (49_frame_commands.md R336). -/
def Obligations.EncodebitsIsEncodeThenPack : Prop :=
  ∀ (a b : Word) (s : State), decode ⟨0x2200, a, b⟩ = .ok .encodebits ∧
    ∃ t u, exec .encode s = .next t ∧ exec .pack t = .next u ∧ exec .encodebits s = .next u ∧
      u.response = some okDone

/-- `DECODEBITS` is `UNPACK` followed by `DECODE` as one command, for every content of `BS`
(49_frame_commands.md R337). -/
def Obligations.DecodebitsIsUnpackThenDecode : Prop :=
  ∀ (a b : Word) (s : State), decode ⟨0x2300, a, b⟩ = .ok .decodebits ∧
    ∃ t u, exec .unpack s = .next t ∧ exec .decode t = .next u ∧ exec .decodebits s = .next u ∧
      u.response = some okDone

/-! ### The whole machine -/

/-- No command but a frame command changes the PSRF (42_buffer_param_access.md R196, 10_state.md R34). -/
def Obligations.OnlyFrameCommandsWriteThePsrf : Prop :=
  ∀ i : Instr, isFrameCommand i = false → ∀ s : State, ∃ t, exec i s = .next t ∧ t.psrf = s.psrf

/-- A command touches no cell that its row of R100 does not list: a cell it does not write stays, and
what it writes, its registers and its response depend on no cell it does not read
(20_memory.md R100). -/
def Obligations.CommandsTouchOnlyListedCells : Prop :=
  (∀ (i : Instr) (s : State), ∃ t, exec i s = .next t ∧
    ∀ sp n, writesCell i sp n = false → t.bufs.readCell sp n = s.bufs.readCell sp n) ∧
  ∀ (i : Instr) (s s' : State), s.psrf = s'.psrf →
    (∀ sp n, readsCell i sp n = true → s.bufs.readCell sp n = s'.bufs.readCell sp n) →
    ∃ t t', exec i s = .next t ∧ exec i s' = .next t' ∧
      t.psrf = t'.psrf ∧ t.response = t'.response ∧
      ∀ sp n, writesCell i sp n = true → t.bufs.readCell sp n = t'.bufs.readCell sp n

/-- Encoder and decoder track each other (49_frame_commands.md R341): from states that agree in the
tracked registers, an encode, and a decode of the frame vector it produced, lead to states that agree
in them again. -/
def Obligations.DecoderTracksTheEncoder : Prop :=
  ∀ e d : State, Tracks e d →
    ∃ e' d', exec .encode e = .next e' ∧ exec .decode (d.withFV e'.bufs.fv) = .next d' ∧
      Tracks e' d'

/-- Every step keeps the invariant of the PSRF (49_frame_commands.md R338). -/
def Obligations.StepKeepsTheInvariant : Prop :=
  ∀ s t : State, s.Inv → step s = .next t → t.Inv

/-- The invariant holds right after reset (49_frame_commands.md R338, 70_reset_and_hazards.md R381). -/
def Obligations.ResetMeetsTheInvariant : Prop := State.reset.Inv
end

