-- ==== Sys2Proof/Laws/Arith.lean ====
section
/-! SUPPORT. The narrowing functions and the array reads: what each gives, once. -/

namespace Sys2Proof.Machine

theorem sat16_range (v : Int) : -32768 ≤ sat16 v ∧ sat16 v ≤ 32767 := by
  unfold sat16
  split_ifs <;> omega

theorem sat16_of_range {v : Int} (lo : -32768 ≤ v) (hi : v ≤ 32767) : sat16 v = v := by
  unfold sat16
  split_ifs <;> omega

/-- `sat16` is the clamp of 00_scope.md R14. -/
theorem sat16_eq_clamp (v : Int) : sat16 v = clampInt v (-32768) 32767 := by
  unfold sat16 clampInt
  split_ifs <;> omega

theorem s16_range (w : Word) : -32768 ≤ s16 w ∧ s16 w ≤ 32767 := by
  have lo := BitVec.le_toInt w
  have hi := BitVec.toInt_lt (x := w)
  simp only [s16]
  omega

theorem s16_u16 {v : Int} (lo : -32768 ≤ v) (hi : v ≤ 32767) : s16 (u16 v) = v := by
  simp only [s16, u16, BitVec.toInt_ofInt]
  rw [Int.bmod_eq_of_le] <;> omega

@[simp] theorem u16_s16 (w : Word) : u16 (s16 w) = w := BitVec.ofInt_toInt

/-- A narrowed value reads back as the clamped one. -/
@[simp] theorem s16_narrow (v : Int) : s16 (narrow v) = sat16 v :=
  s16_u16 (sat16_range v).1 (sat16_range v).2

theorem s16_sadd (a b : Word) : s16 (sadd a b) = sat16 (s16 a + s16 b) := s16_narrow _

theorem s16_ssub (a b : Word) : s16 (ssub a b) = sat16 (s16 a - s16 b) := s16_narrow _

theorem s16_smul (a b : Word) : s16 (smul a b) = sat16 (asr (s16 a * s16 b) 15) := s16_narrow _

theorem s16_sshl (a n : Word) : s16 (sshl a n) = sat16 (shiftExact (s16 a) (s16 n)) := s16_narrow _

theorem s16_sshr (a n : Word) : s16 (sshr a n) = sat16 (shiftExact (s16 a) (-(s16 n))) := s16_narrow _

variable {α : Type} {n : Nat}

@[simp] theorem cellD_ofFn (f : Fin n → α) (i : Nat) (d : α) :
    cellD (Vector.ofFn f) i d = if h : i < n then f ⟨i, h⟩ else d := by
  simp [cellD]

@[simp] theorem cellD_replicate (x : α) (i : Nat) (d : α) :
    cellD (Vector.replicate n x) i d = if i < n then x else d := by
  simp [cellD]

theorem cellD_of_lt (v : Vector α n) {i : Nat} (h : i < n) (d : α) : cellD v i d = v[i] := by
  simp [cellD, h]

theorem cellD_of_ge (v : Vector α n) {i : Nat} (h : n ≤ i) (d : α) : cellD v i d = d := by
  simp [cellD, Nat.not_lt.mpr h]

/-- Two arrays that read alike everywhere are the same array. -/
theorem vector_ext_cellD {v w : Vector α n} (d : α) (h : ∀ i, cellD v i d = cellD w i d) : v = w := by
  apply Vector.ext
  intro i hi
  have e := h i
  rwa [cellD_of_lt v hi, cellD_of_lt w hi] at e

theorem cellD_setIfInBounds (v : Vector α n) (i j : Nat) (x d : α) :
    cellD (v.setIfInBounds i x) j d = if i = j ∧ j < n then x else cellD v j d := by
  by_cases hj : j < n
  · simp only [cellD, hj, dif_pos, and_true]
    rw [Vector.getElem_setIfInBounds]
  · simp [cellD, hj]

@[simp] theorem harmD_succ (v : Vector α n) (l : Nat) (d : α) : harmD v (l + 1) d = cellD v l d := rfl

@[simp] theorem harmD_zero (v : Vector α n) (d : α) : harmD v 0 d = d := rfl

end Sys2Proof.Machine
end

