-- ==== Sys2Proof/Laws/Access.lean ====
section
/-! SUPPORT. The buffers as memory: a read after a write, and that the reads of all cells determine the
buffers, so that equal memories are equal data (log entry 6). -/

namespace Sys2Proof.Machine

/-- The value a cell of a space holds of a 16-bit value written to it: its low byte in `BS`
(20_memory.md R92). -/
def storedWord (space : Space) (v : Word) : Word :=
  if space = .bs then (v.setWidth 8).setWidth 16 else v

theorem setWidth_byte_inj {a b : Byte} (h : a.setWidth 16 = b.setWidth 16) : a = b := by
  have e := congrArg (fun x : Word => x.setWidth 8) h
  simpa using e

/-- A read after a write gives the value written, at the cell written, and what was there everywhere
else. -/
theorem readCell_writeCell (m : Buffers) (space sp : Space) (i j : Nat) (v : Word) :
    (m.writeCell space i v).readCell sp j =
      if sp = space ∧ j = i ∧ i < spaceSize space then storedWord space v else m.readCell sp j := by
  cases space <;> cases sp <;>
    simp only [Buffers.writeCell, Buffers.readCell, spaceSize, storedWord, cellD_setIfInBounds,
      reduceCtorEq, false_and, if_false, true_and, if_true, Nat.not_lt_zero, and_false] <;>
    split_ifs <;> first | rfl | omega

/-- Buffers that read alike at every cell of every space are the same buffers. -/
theorem buffers_ext_readCell {m m' : Buffers} (h : ∀ sp i, m.readCell sp i = m'.readCell sp i) :
    m = m' := by
  have h0 : m.pcmi = m'.pcmi := vector_ext_cellD 0 (h .pcmi)
  have h1 : m.pcmo = m'.pcmo := vector_ext_cellD 0 (h .pcmo)
  have h2 : m.fv = m'.fv := vector_ext_cellD 0 (h .fv)
  have h3 : m.bs = m'.bs := vector_ext_cellD 0 fun i => setWidth_byte_inj (h .bs i)
  have h4 : m.spr = m'.spr := vector_ext_cellD 0 (h .spr)
  have h5 : m.spi = m'.spi := vector_ext_cellD 0 (h .spi)
  cases m
  cases m'
  simp_all

end Sys2Proof.Machine
end

