-- ==== Sys2Proof/Laws/Config.lean ====
section
/-! SUPPORT. What the configuration the block was built with meets: each constraint of 00_scope.md R10,
read off the proof the constant carries. -/

namespace Sys2Proof

/-- The eleven checks hold of the configuration the block was built with. -/
theorem Config.checks :
    (((((((((Config.cfg.pitchRangeOk = true ∧ Config.cfg.resetPairOk = true) ∧
      Config.cfg.lagRangeOk = true) ∧ Config.cfg.thresholdsOk = true) ∧
      Config.cfg.ampBitsOk = true) ∧ Config.cfg.quantTablesOk = true) ∧
      Config.cfg.predOk = true) ∧ Config.cfg.enhOk = true) ∧ Config.cfg.noiseOk = true) ∧
      Config.cfg.uvShiftOk = true) ∧ Config.cfg.windowsOk = true := by
  simpa only [Cfg.wf, Bool.and_eq_true] using Config.built.ok

theorem Config.pitchRange : 2 ≤ Config.cfg.p2Min ∧ Config.cfg.p2Min ≤ Config.cfg.p2Max ∧
    Config.cfg.p2Max ≤ 32767 ∧ Config.cfg.p2Max - Config.cfg.p2Min ≤ 4095 := by
  have h := Config.checks.1.1.1.1.1.1.1.1.1.1
  simpa only [Cfg.pitchRangeOk, Bool.and_eq_true, decide_eq_true_eq, and_assoc] using h

theorem Config.resetPair : Machine.deriveLK (Machine.w0Tab Config.cfg.p2Min 0) = (9, 3) := by
  have h := Config.checks.1.1.1.1.1.1.1.1.1.2
  simpa only [Cfg.resetPairOk, beq_iff_eq] using h

theorem Config.lagRange : 1 ≤ Config.cfg.lagMin ∧ Config.cfg.lagMin ≤ Config.cfg.lagMax ∧
    Config.cfg.lagMax ≤ 159 := by
  have h := Config.checks.1.1.1.1.1.1.1.1.2
  simpa only [Cfg.lagRangeOk, Bool.and_eq_true, decide_eq_true_eq, and_assoc] using h

theorem Config.thresholds : Config.cfg.thDecay.toNat ≤ 32767 ∧ Config.cfg.thScale.toNat ≤ 32767 ∧
    Config.cfg.thMin.toNat ≤ 32767 := by
  have h := Config.checks.1.1.1.1.1.1.1.2
  simpa only [Cfg.thresholdsOk, nonNegWord, Bool.and_eq_true, decide_eq_true_eq, and_assoc] using h

theorem Config.ampBits : 1 ≤ Config.cfg.ampBitsU ∧ Config.cfg.ampBitsU < Config.cfg.ampBitsV ∧
    Config.cfg.ampBitsV ≤ 4 := by
  have h := Config.checks.1.1.1.1.1.1.2
  simpa only [Cfg.ampBitsOk, Bool.and_eq_true, decide_eq_true_eq, and_assoc] using h

theorem Config.quantTables : 1 ≤ Config.cfg.gainN ∧ Config.cfg.gainN ≤ 4096 ∧
    Config.cfg.gainTab.length = Config.cfg.gainN ∧
    Config.cfg.deqV.length = 2 ^ Config.cfg.ampBitsV ∧
    Config.cfg.deqU.length = 2 ^ Config.cfg.ampBitsU := by
  have h := Config.checks.1.1.1.1.1.2
  simpa only [Cfg.quantTablesOk, Bool.and_eq_true, decide_eq_true_eq, beq_iff_eq, and_assoc] using h

theorem Config.pred : Config.cfg.predCoef.toNat ≤ 32767 := by
  have h := Config.checks.1.1.1.1.2
  simpa only [Cfg.predOk, nonNegWord, decide_eq_true_eq] using h

theorem Config.enh : 1 ≤ Config.cfg.enhMin.toNat ∧ Config.cfg.enhMin.toNat ≤ 16384 ∧
    16384 ≤ Config.cfg.enhMax.toNat ∧ Config.cfg.enhMax.toNat ≤ 32767 := by
  have h := Config.checks.1.1.1.2
  simpa only [Cfg.enhOk, nonNegWord, Bool.and_eq_true, decide_eq_true_eq, and_assoc] using h

theorem Config.noise : 2 ≤ Config.cfg.noiseM ∧ Config.cfg.noiseM ≤ 65536 ∧
    Config.cfg.noiseA < Config.cfg.noiseM ∧ Config.cfg.noiseC < Config.cfg.noiseM ∧
    Config.cfg.noiseSeed0 < Config.cfg.noiseM ∧ Config.cfg.noiseOffset ≤ 32768 := by
  have h := Config.checks.1.1.2
  simpa only [Cfg.noiseOk, Bool.and_eq_true, decide_eq_true_eq, and_assoc] using h

theorem Config.uvShift : Config.cfg.uvShift ≤ 15 := by
  have h := Config.checks.1.2
  simpa only [Cfg.uvShiftOk, decide_eq_true_eq] using h

theorem Config.windows : Config.cfg.awin.toList.all nonNegWord = true ∧
    Config.cfg.swin.toList.all nonNegWord = true := by
  have h := Config.checks.2
  simpa only [Cfg.windowsOk, Bool.and_eq_true] using h

end Sys2Proof
end

