-- ==== Sys2Proof/Laws/PerInstr.lean ====
section
/-! SUPPORT. Facts about every command as syntax, one lemma per constructor: the command word of its
packet selects a row of the opcode map (30_encoding.md R119). -/

namespace Sys2Proof.Laws.EncodesLegalWord

/-- The command word the encoder gives a command is legal. -/
def Statement (i : Instr) : Prop := legalCW (encode i).cw = true

theorem sadd (a b : Word) : Statement (.sadd a b) := show legalCW (cwOf 0 0 0) = true by decide
theorem ssub (a b : Word) : Statement (.ssub a b) := show legalCW (cwOf 0 1 0) = true by decide
theorem smul (a b : Word) : Statement (.smul a b) := show legalCW (cwOf 0 2 0) = true by decide
theorem sshl (a n : Word) : Statement (.sshl a n) := show legalCW (cwOf 0 3 0) = true by decide
theorem sshr (a n : Word) : Statement (.sshr a n) := show legalCW (cwOf 0 4 0) = true by decide

theorem rdbuf (space : Space) (index : BitVec 8) : Statement (.rdbuf space index) := by
  show legalCW (cwAccess 0 space index) = true
  cases space <;> (revert index; decide +kernel)

theorem wrbuf (space : Space) (index : BitVec 8) (data : Word) : Statement (.wrbuf space index data) := by
  show legalCW (cwAccess 1 space index) = true
  cases space <;> (revert index; decide +kernel)

theorem encode : Statement .encode := by unfold Statement; decide
theorem decode : Statement .decode := by unfold Statement; decide
theorem encodebits : Statement .encodebits := by unfold Statement; decide
theorem decodebits : Statement .decodebits := by unfold Statement; decide
theorem pack : Statement .pack := by unfold Statement; decide
theorem unpack : Statement .unpack := by unfold Statement; decide
theorem fft : Statement .fft := by unfold Statement; decide
theorem ifft : Statement .ifft := by unfold Statement; decide

theorem rdparam (sel : BitVec 8) : Statement (.rdparam sel) := by
  show legalCW (cwOf 3 0 sel) = true
  revert sel
  decide +kernel

end Sys2Proof.Laws.EncodesLegalWord
end

