-- ==== Sys2Proof/Laws/State.lean ====
section
/-! SUPPORT. One lemma per field per update of the state record: what each named update leaves in each
field. All hold by definition. -/

namespace Sys2Proof.Machine

variable (s : State) (p : Psrf) (m : Buffers)

@[simp] theorem State.respond_psrf (r : Response) : (s.respond r).psrf = s.psrf := rfl
@[simp] theorem State.respond_bufs (r : Response) : (s.respond r).bufs = s.bufs := rfl
@[simp] theorem State.respond_inbox (r : Response) : (s.respond r).inbox = s.inbox := rfl
@[simp] theorem State.respond_response (r : Response) : (s.respond r).response = some r := rfl

@[simp] theorem State.answer_psrf (y : Word) (sat : Bool) : (s.answer y sat).psrf = s.psrf := rfl
@[simp] theorem State.answer_bufs (y : Word) (sat : Bool) : (s.answer y sat).bufs = s.bufs := rfl
@[simp] theorem State.answer_inbox (y : Word) (sat : Bool) : (s.answer y sat).inbox = s.inbox := rfl
@[simp] theorem State.answer_response (y : Word) (sat : Bool) : (s.answer y sat).response = some ⟨.ok, sat, y⟩ := rfl

@[simp] theorem State.done_psrf : s.done.psrf = s.psrf := rfl
@[simp] theorem State.done_bufs : s.done.bufs = s.bufs := rfl
@[simp] theorem State.done_inbox : s.done.inbox = s.inbox := rfl
@[simp] theorem State.done_response : s.done.response = some ⟨.ok, false, 0⟩ := rfl

@[simp] theorem State.raise_psrf (st : Status) : (s.raise st).psrf = s.psrf := rfl
@[simp] theorem State.raise_bufs (st : Status) : (s.raise st).bufs = s.bufs := rfl
@[simp] theorem State.raise_inbox (st : Status) : (s.raise st).inbox = s.inbox := rfl
@[simp] theorem State.raise_response (st : Status) : (s.raise st).response = some ⟨st, false, 0⟩ := rfl

@[simp] theorem State.answerExact_psrf (x : Int) : (s.answerExact x).psrf = s.psrf := rfl
@[simp] theorem State.answerExact_bufs (x : Int) : (s.answerExact x).bufs = s.bufs := rfl
@[simp] theorem State.answerExact_inbox (x : Int) : (s.answerExact x).inbox = s.inbox := rfl
@[simp] theorem State.answerExact_response (x : Int) : (s.answerExact x).response = some ⟨.ok, satFlag x, narrow x⟩ := rfl

@[simp] theorem State.withFetchWord_psrf (nbits w : Nat) : (s.withFetchWord nbits w).psrf = s.psrf := rfl
@[simp] theorem State.withFetchWord_bufs (nbits w : Nat) : (s.withFetchWord nbits w).bufs = s.bufs := rfl
@[simp] theorem State.withFetchWord_inbox (nbits w : Nat) : (s.withFetchWord nbits w).inbox = .packet (packetOfTableWord nbits w) :: s.inbox := rfl
@[simp] theorem State.withFetchWord_response (nbits w : Nat) : (s.withFetchWord nbits w).response = s.response := rfl

@[simp] theorem State.resetKeepingInbox_psrf : s.resetKeepingInbox.psrf = Psrf.resetOf Config.cfg := rfl
@[simp] theorem State.resetKeepingInbox_bufs : s.resetKeepingInbox.bufs = Buffers.zero := rfl
@[simp] theorem State.resetKeepingInbox_inbox : s.resetKeepingInbox.inbox = s.inbox := rfl
@[simp] theorem State.resetKeepingInbox_response : s.resetKeepingInbox.response = none := rfl

@[simp] theorem State.reset_psrf : State.reset.psrf = Psrf.resetOf Config.cfg := rfl
@[simp] theorem State.reset_bufs : State.reset.bufs = Buffers.zero := rfl
@[simp] theorem State.reset_inbox : State.reset.inbox = [] := rfl
@[simp] theorem State.reset_response : State.reset.response = none := rfl

@[simp] theorem Buffers.withSpectrum_pcmi (x : Vector Word 256 × Vector Word 256) : (m.withSpectrum x).pcmi = m.pcmi := rfl
@[simp] theorem Buffers.withSpectrum_pcmo (x : Vector Word 256 × Vector Word 256) : (m.withSpectrum x).pcmo = m.pcmo := rfl
@[simp] theorem Buffers.withSpectrum_fv (x : Vector Word 256 × Vector Word 256) : (m.withSpectrum x).fv = m.fv := rfl
@[simp] theorem Buffers.withSpectrum_bs (x : Vector Word 256 × Vector Word 256) : (m.withSpectrum x).bs = m.bs := rfl
@[simp] theorem Buffers.withSpectrum_spr (x : Vector Word 256 × Vector Word 256) : (m.withSpectrum x).spr = x.1 := rfl
@[simp] theorem Buffers.withSpectrum_spi (x : Vector Word 256 × Vector Word 256) : (m.withSpectrum x).spi = x.2 := rfl

@[simp] theorem Buffers.packed_pcmi : m.packed.pcmi = m.pcmi := rfl
@[simp] theorem Buffers.packed_pcmo : m.packed.pcmo = m.pcmo := rfl
@[simp] theorem Buffers.packed_fv : m.packed.fv = m.fv := rfl
@[simp] theorem Buffers.packed_bs : m.packed.bs = packFrame m.fv := rfl
@[simp] theorem Buffers.packed_spr : m.packed.spr = m.spr := rfl
@[simp] theorem Buffers.packed_spi : m.packed.spi = m.spi := rfl

@[simp] theorem Buffers.unpacked_pcmi : m.unpacked.pcmi = m.pcmi := rfl
@[simp] theorem Buffers.unpacked_pcmo : m.unpacked.pcmo = m.pcmo := rfl
@[simp] theorem Buffers.unpacked_fv : m.unpacked.fv = unpackFrame m.bs := rfl
@[simp] theorem Buffers.unpacked_bs : m.unpacked.bs = m.bs := rfl
@[simp] theorem Buffers.unpacked_spr : m.unpacked.spr = m.spr := rfl
@[simp] theorem Buffers.unpacked_spi : m.unpacked.spi = m.spi := rfl

@[simp] theorem Psrf.frameShift_w0 : p.frameShift.w0 = p.w0 := rfl
@[simp] theorem Psrf.frameShift_l : p.frameShift.l = p.l := rfl
@[simp] theorem Psrf.frameShift_k : p.frameShift.k = p.k := rfl
@[simp] theorem Psrf.frameShift_v : p.frameShift.v = p.v := rfl
@[simp] theorem Psrf.frameShift_m : p.frameShift.m = p.m := rfl
@[simp] theorem Psrf.frameShift_w0p : p.frameShift.w0p = p.w0 := rfl
@[simp] theorem Psrf.frameShift_lp : p.frameShift.lp = p.l := rfl
@[simp] theorem Psrf.frameShift_kp : p.frameShift.kp = p.k := rfl
@[simp] theorem Psrf.frameShift_vp : p.frameShift.vp = p.v := rfl
@[simp] theorem Psrf.frameShift_mp : p.frameShift.mp = p.m := rfl
@[simp] theorem Psrf.frameShift_pc : p.frameShift.pc = p.pc := rfl
@[simp] theorem Psrf.frameShift_pp1 : p.frameShift.pp1 = p.pc := rfl
@[simp] theorem Psrf.frameShift_pp2 : p.frameShift.pp2 = p.pp1 := rfl
@[simp] theorem Psrf.frameShift_thmax : p.frameShift.thmax = p.thmax := rfl
@[simp] theorem Psrf.frameShift_seed : p.frameShift.seed = p.seed := rfl
@[simp] theorem Psrf.frameShift_reserved : p.frameShift.reserved = p.reserved := rfl
@[simp] theorem Psrf.frameShift_ph : p.frameShift.ph = p.ph := rfl
@[simp] theorem Psrf.frameShift_uvt : p.frameShift.uvt = p.uvt := rfl

@[simp] theorem Psrf.paramDecode_w0 (c : Cfg) (fv : Vector Word 8) :
    (p.paramDecode c fv).w0 = BitVec.ofNat 32 (w0Tab c.p2Min (frameIndex c fv)) := rfl
@[simp] theorem Psrf.paramDecode_l (c : Cfg) (fv : Vector Word 8) :
    (p.paramDecode c fv).l = BitVec.ofNat 16 (deriveL (w0Tab c.p2Min (frameIndex c fv))) := rfl
@[simp] theorem Psrf.paramDecode_k (c : Cfg) (fv : Vector Word 8) :
    (p.paramDecode c fv).k = BitVec.ofNat 16 (bandCount (deriveL (w0Tab c.p2Min (frameIndex c fv)))) := rfl
@[simp] theorem Psrf.paramDecode_v (c : Cfg) (fv : Vector Word 8) :
    (p.paramDecode c fv).v = maskVoicing (cellD fv 1 0) (bandCount (deriveL (w0Tab c.p2Min (frameIndex c fv)))) := rfl
@[simp] theorem Psrf.paramDecode_w0p (c : Cfg) (fv : Vector Word 8) :
    (p.paramDecode c fv).w0p = p.w0p := rfl
@[simp] theorem Psrf.paramDecode_lp (c : Cfg) (fv : Vector Word 8) :
    (p.paramDecode c fv).lp = p.lp := rfl
@[simp] theorem Psrf.paramDecode_kp (c : Cfg) (fv : Vector Word 8) :
    (p.paramDecode c fv).kp = p.kp := rfl
@[simp] theorem Psrf.paramDecode_vp (c : Cfg) (fv : Vector Word 8) :
    (p.paramDecode c fv).vp = p.vp := rfl
@[simp] theorem Psrf.paramDecode_mp (c : Cfg) (fv : Vector Word 8) :
    (p.paramDecode c fv).mp = p.mp := rfl
@[simp] theorem Psrf.paramDecode_pc (c : Cfg) (fv : Vector Word 8) :
    (p.paramDecode c fv).pc = BitVec.ofNat 16 (frameIndex c fv) := rfl
@[simp] theorem Psrf.paramDecode_pp1 (c : Cfg) (fv : Vector Word 8) :
    (p.paramDecode c fv).pp1 = p.pp1 := rfl
@[simp] theorem Psrf.paramDecode_pp2 (c : Cfg) (fv : Vector Word 8) :
    (p.paramDecode c fv).pp2 = p.pp2 := rfl
@[simp] theorem Psrf.paramDecode_thmax (c : Cfg) (fv : Vector Word 8) :
    (p.paramDecode c fv).thmax = p.thmax := rfl
@[simp] theorem Psrf.paramDecode_seed (c : Cfg) (fv : Vector Word 8) :
    (p.paramDecode c fv).seed = p.seed := rfl
@[simp] theorem Psrf.paramDecode_reserved (c : Cfg) (fv : Vector Word 8) :
    (p.paramDecode c fv).reserved = p.reserved := rfl
@[simp] theorem Psrf.paramDecode_ph (c : Cfg) (fv : Vector Word 8) :
    (p.paramDecode c fv).ph = p.ph := rfl
@[simp] theorem Psrf.paramDecode_uvt (c : Cfg) (fv : Vector Word 8) :
    (p.paramDecode c fv).uvt = p.uvt := rfl

@[simp] theorem Psrf.resetOf_w0 (c : Cfg) : (Psrf.resetOf c).w0 = BitVec.ofNat 32 (w0Tab c.p2Min 0) := rfl
@[simp] theorem Psrf.resetOf_l (c : Cfg) : (Psrf.resetOf c).l = 9 := rfl
@[simp] theorem Psrf.resetOf_k (c : Cfg) : (Psrf.resetOf c).k = 3 := rfl
@[simp] theorem Psrf.resetOf_v (c : Cfg) : (Psrf.resetOf c).v = 0 := rfl
@[simp] theorem Psrf.resetOf_m (c : Cfg) : (Psrf.resetOf c).m = Vector.replicate 56 0 := rfl
@[simp] theorem Psrf.resetOf_w0p (c : Cfg) : (Psrf.resetOf c).w0p = 0 := rfl
@[simp] theorem Psrf.resetOf_lp (c : Cfg) : (Psrf.resetOf c).lp = 0 := rfl
@[simp] theorem Psrf.resetOf_kp (c : Cfg) : (Psrf.resetOf c).kp = 0 := rfl
@[simp] theorem Psrf.resetOf_vp (c : Cfg) : (Psrf.resetOf c).vp = 0 := rfl
@[simp] theorem Psrf.resetOf_mp (c : Cfg) : (Psrf.resetOf c).mp = Vector.replicate 56 0 := rfl
@[simp] theorem Psrf.resetOf_pc (c : Cfg) : (Psrf.resetOf c).pc = 0 := rfl
@[simp] theorem Psrf.resetOf_pp1 (c : Cfg) : (Psrf.resetOf c).pp1 = 0 := rfl
@[simp] theorem Psrf.resetOf_pp2 (c : Cfg) : (Psrf.resetOf c).pp2 = 0 := rfl
@[simp] theorem Psrf.resetOf_thmax (c : Cfg) : (Psrf.resetOf c).thmax = 0 := rfl
@[simp] theorem Psrf.resetOf_seed (c : Cfg) : (Psrf.resetOf c).seed = BitVec.ofNat 16 c.noiseSeed0 := rfl
@[simp] theorem Psrf.resetOf_reserved (c : Cfg) : (Psrf.resetOf c).reserved = 0 := rfl
@[simp] theorem Psrf.resetOf_ph (c : Cfg) : (Psrf.resetOf c).ph = Vector.replicate 56 0 := rfl
@[simp] theorem Psrf.resetOf_uvt (c : Cfg) : (Psrf.resetOf c).uvt = Vector.replicate 96 0 := rfl

@[simp] theorem Psrf.synthesized_w0 (c : Cfg) : (p.synthesized c).w0 = p.w0 := rfl
@[simp] theorem Psrf.synthesized_l (c : Cfg) : (p.synthesized c).l = p.l := rfl
@[simp] theorem Psrf.synthesized_k (c : Cfg) : (p.synthesized c).k = p.k := rfl
@[simp] theorem Psrf.synthesized_v (c : Cfg) : (p.synthesized c).v = p.v := rfl
@[simp] theorem Psrf.synthesized_m (c : Cfg) : (p.synthesized c).m = p.m := rfl
@[simp] theorem Psrf.synthesized_w0p (c : Cfg) : (p.synthesized c).w0p = p.w0p := rfl
@[simp] theorem Psrf.synthesized_lp (c : Cfg) : (p.synthesized c).lp = p.lp := rfl
@[simp] theorem Psrf.synthesized_kp (c : Cfg) : (p.synthesized c).kp = p.kp := rfl
@[simp] theorem Psrf.synthesized_vp (c : Cfg) : (p.synthesized c).vp = p.vp := rfl
@[simp] theorem Psrf.synthesized_mp (c : Cfg) : (p.synthesized c).mp = p.mp := rfl
@[simp] theorem Psrf.synthesized_pc (c : Cfg) : (p.synthesized c).pc = p.pc := rfl
@[simp] theorem Psrf.synthesized_pp1 (c : Cfg) : (p.synthesized c).pp1 = p.pp1 := rfl
@[simp] theorem Psrf.synthesized_pp2 (c : Cfg) : (p.synthesized c).pp2 = p.pp2 := rfl
@[simp] theorem Psrf.synthesized_thmax (c : Cfg) : (p.synthesized c).thmax = p.thmax := rfl
@[simp] theorem Psrf.synthesized_seed (c : Cfg) : (p.synthesized c).seed = (noiseDraws c 256 p.seed).2 := rfl
@[simp] theorem Psrf.synthesized_reserved (c : Cfg) : (p.synthesized c).reserved = p.reserved := rfl
@[simp] theorem Psrf.synthesized_ph (c : Cfg) : (p.synthesized c).ph = (voicedSynth p).2 := rfl
@[simp] theorem Psrf.synthesized_uvt (c : Cfg) : (p.synthesized c).uvt = noiseTail c (noiseOutput c p).1 := rfl

@[simp] theorem Buffers.synthesized_pcmi (c : Cfg) :
    (m.synthesized c p).pcmi = m.pcmi := rfl
@[simp] theorem Buffers.synthesized_pcmo (c : Cfg) :
    (m.synthesized c p).pcmo = mixedFrame c p := rfl
@[simp] theorem Buffers.synthesized_fv (c : Cfg) :
    (m.synthesized c p).fv = m.fv := rfl
@[simp] theorem Buffers.synthesized_bs (c : Cfg) :
    (m.synthesized c p).bs = m.bs := rfl
@[simp] theorem Buffers.synthesized_spr (c : Cfg) :
    (m.synthesized c p).spr = (noiseOutput c p).1 := rfl
@[simp] theorem Buffers.synthesized_spi (c : Cfg) :
    (m.synthesized c p).spi = (noiseOutput c p).2 := rfl

@[simp] theorem Buffers.encoded_pcmi (a : EncodeAnalysis) : (m.encoded a).pcmi = m.pcmi := rfl
@[simp] theorem Buffers.encoded_pcmo (a : EncodeAnalysis) : (m.encoded a).pcmo = m.pcmo := rfl
@[simp] theorem Buffers.encoded_fv (a : EncodeAnalysis) : (m.encoded a).fv = a.fv := rfl
@[simp] theorem Buffers.encoded_bs (a : EncodeAnalysis) : (m.encoded a).bs = m.bs := rfl
@[simp] theorem Buffers.encoded_spr (a : EncodeAnalysis) : (m.encoded a).spr = a.spectrum.1 := rfl
@[simp] theorem Buffers.encoded_spi (a : EncodeAnalysis) : (m.encoded a).spi = a.spectrum.2 := rfl

@[simp] theorem Psrf.encoded_w0 (c : Cfg) (a : EncodeAnalysis) :
    (p.encoded c a).w0 = (p.paramDecode c a.fv).w0 := rfl
@[simp] theorem Psrf.encoded_l (c : Cfg) (a : EncodeAnalysis) :
    (p.encoded c a).l = (p.paramDecode c a.fv).l := rfl
@[simp] theorem Psrf.encoded_k (c : Cfg) (a : EncodeAnalysis) :
    (p.encoded c a).k = (p.paramDecode c a.fv).k := rfl
@[simp] theorem Psrf.encoded_v (c : Cfg) (a : EncodeAnalysis) :
    (p.encoded c a).v = (p.paramDecode c a.fv).v := rfl
@[simp] theorem Psrf.encoded_m (c : Cfg) (a : EncodeAnalysis) :
    (p.encoded c a).m = (p.paramDecode c a.fv).m := rfl
@[simp] theorem Psrf.encoded_w0p (c : Cfg) (a : EncodeAnalysis) :
    (p.encoded c a).w0p = p.w0p := rfl
@[simp] theorem Psrf.encoded_lp (c : Cfg) (a : EncodeAnalysis) :
    (p.encoded c a).lp = p.lp := rfl
@[simp] theorem Psrf.encoded_kp (c : Cfg) (a : EncodeAnalysis) :
    (p.encoded c a).kp = p.kp := rfl
@[simp] theorem Psrf.encoded_vp (c : Cfg) (a : EncodeAnalysis) :
    (p.encoded c a).vp = p.vp := rfl
@[simp] theorem Psrf.encoded_mp (c : Cfg) (a : EncodeAnalysis) :
    (p.encoded c a).mp = p.mp := rfl
@[simp] theorem Psrf.encoded_pc (c : Cfg) (a : EncodeAnalysis) :
    (p.encoded c a).pc = BitVec.ofNat 16 a.hist := rfl
@[simp] theorem Psrf.encoded_pp1 (c : Cfg) (a : EncodeAnalysis) :
    (p.encoded c a).pp1 = p.pp1 := rfl
@[simp] theorem Psrf.encoded_pp2 (c : Cfg) (a : EncodeAnalysis) :
    (p.encoded c a).pp2 = p.pp2 := rfl
@[simp] theorem Psrf.encoded_thmax (c : Cfg) (a : EncodeAnalysis) :
    (p.encoded c a).thmax = a.thmax := rfl
@[simp] theorem Psrf.encoded_seed (c : Cfg) (a : EncodeAnalysis) :
    (p.encoded c a).seed = p.seed := rfl
@[simp] theorem Psrf.encoded_reserved (c : Cfg) (a : EncodeAnalysis) :
    (p.encoded c a).reserved = p.reserved := rfl
@[simp] theorem Psrf.encoded_ph (c : Cfg) (a : EncodeAnalysis) :
    (p.encoded c a).ph = p.ph := rfl
@[simp] theorem Psrf.encoded_uvt (c : Cfg) (a : EncodeAnalysis) :
    (p.encoded c a).uvt = p.uvt := rfl

@[simp] theorem decodeFrame_psrf (c : Cfg) :
    (decodeFrame c s).psrf = (decodedRegs c s).synthesized c := rfl
@[simp] theorem decodeFrame_bufs (c : Cfg) :
    (decodeFrame c s).bufs = s.bufs.synthesized c (decodedRegs c s) := rfl
@[simp] theorem decodeFrame_inbox (c : Cfg) :
    (decodeFrame c s).inbox = s.inbox := rfl
@[simp] theorem decodeFrame_response (c : Cfg) :
    (decodeFrame c s).response = s.response := rfl
@[simp] theorem encodeFrame_psrf (c : Cfg) :
    (encodeFrame c s).psrf = s.psrf.frameShift.encoded c (encodeAnalysis c s.psrf.frameShift s.bufs) := rfl
@[simp] theorem encodeFrame_bufs (c : Cfg) :
    (encodeFrame c s).bufs = s.bufs.encoded (encodeAnalysis c s.psrf.frameShift s.bufs) := rfl
@[simp] theorem encodeFrame_inbox (c : Cfg) :
    (encodeFrame c s).inbox = s.inbox := rfl
@[simp] theorem encodeFrame_response (c : Cfg) :
    (encodeFrame c s).response = s.response := rfl

end Sys2Proof.Machine
end

