-- ==== Sys2Proof/Laws/Step.lean ====
section
/-! SUPPORT. What a step and the buffer access commands can do, once (inversion lemmas). -/

namespace Sys2Proof.Machine

/-- Everything a step that answers can be: idle, a reset, a decoded command, or an illegal word. -/
theorem step_cases {s t : State} (h : step s = .next t) :
    (s.inbox = [] ∧ t = s) ∨
    (∃ rest, s.inbox = .reset :: rest ∧ t = State.resetKeepingInbox { s with inbox := rest }) ∨
    (∃ p rest i, s.inbox = .packet p :: rest ∧ decode p = .ok i ∧
      exec i { s with inbox := rest } = .next t) ∨
    (∃ p rest e, s.inbox = .packet p :: rest ∧ decode p = .error e ∧
      t = State.raise { s with inbox := rest } .illegal) := by
  unfold step at h
  split at h
  · exact .inl ⟨‹_›, by simpa using h.symm⟩
  · exact .inr (.inl ⟨_, ‹_›, by simpa using h.symm⟩)
  · split at h
    · exact .inr (.inr (.inl ⟨_, _, _, ‹_›, ‹_›, h⟩))
    · exact .inr (.inr (.inr ⟨_, _, _, ‹_›, ‹_›, by simpa using h.symm⟩))

/-- `RDBUF` answers the cell in range and `BAD_ADDRESS` otherwise. -/
theorem execRdbuf_eq (space : Space) (index : BitVec 8) (s : State) :
    execRdbuf space index s =
      .next (if index.toNat < spaceSize space then s.answer (s.bufs.readCell space index.toNat) false
        else s.raise .badAddress) := by
  unfold execRdbuf readStatus
  by_cases h : index.toNat < spaceSize space
  · simp [h, Nat.not_le.mpr h]
  · simp [h, Nat.le_of_not_lt h]

/-- `WRBUF` writes the cell when it is in range and writable; it answers `BAD_ADDRESS` out of range
and `ACCESS` for a space the host may not write. -/
theorem execWrbuf_eq (space : Space) (index : BitVec 8) (data : Word) (s : State) :
    execWrbuf space index data s =
      .next (if index.toNat < spaceSize space then
          if hostWritable space then
            State.done { s with bufs := s.bufs.writeCell space index.toNat data }
          else s.raise .access
        else s.raise .badAddress) := by
  unfold execWrbuf writeStatus
  by_cases h : index.toNat < spaceSize space
  · cases hw : hostWritable space <;> simp [h, Nat.not_le.mpr h]
  · simp [h, Nat.le_of_not_lt h]

end Sys2Proof.Machine
end

