-- ==== Sys2Proof/Tests/Slice0.lean ====
section
/-! SUPPORT. Tests: words written out from the encoding tables, an ill-formed term for each check, worked
examples of the spec, and for every obligation with hypotheses a state and operands that meet them. -/

namespace Sys2Proof.Tests

-- The theorems are elaborated one after another, so that their kernel evaluations do not wait in threads.
set_option Elab.async false

open Sys2Proof Sys2Proof.Machine

/-! ### Decoding: the word of every row of 30_encoding.md R119, with operands -/

theorem test_decode_sadd : decode ⟨0x0000, 0x7530, 0x2710⟩ = .ok (.sadd 30000 10000) := by decide
theorem test_decode_ssub : decode ⟨0x0100, 0x8AD0, 0x2710⟩ = .ok (.ssub 0x8AD0 10000) := by decide
theorem test_decode_smul : decode ⟨0x0200, 0x4000, 0x2000⟩ = .ok (.smul 16384 8192) := by decide
theorem test_decode_sshl : decode ⟨0x0300, 0x4000, 0x0001⟩ = .ok (.sshl 16384 1) := by decide
theorem test_decode_sshr : decode ⟨0x0400, 0x8000, 0x0003⟩ = .ok (.sshr 0x8000 3) := by decide
theorem test_decode_rdbuf_pcmo : decode ⟨0x119F, 0, 0⟩ = .ok (.rdbuf .pcmo 159) := by decide
theorem test_decode_rdbuf_absent : decode ⟨0x1600, 7, 9⟩ = .ok (.rdbuf .absent6 0) := by decide
theorem test_decode_wrbuf_pcmi : decode ⟨0x1805, 0xFF85, 0⟩ = .ok (.wrbuf .pcmi 5 0xFF85) := by decide
theorem test_decode_wrbuf_fv : decode ⟨0x1A04, 0x0444, 0⟩ = .ok (.wrbuf .fv 4 0x444) := by decide
theorem test_decode_encode : decode ⟨0x2000, 0, 0⟩ = .ok .encode := by decide
theorem test_decode_decode : decode ⟨0x2100, 0, 0⟩ = .ok .decode := by decide
theorem test_decode_encodebits : decode ⟨0x2200, 0, 0⟩ = .ok .encodebits := by decide
theorem test_decode_decodebits : decode ⟨0x2300, 0, 0⟩ = .ok .decodebits := by decide
theorem test_decode_pack : decode ⟨0x2400, 0, 0⟩ = .ok .pack := by decide
theorem test_decode_unpack : decode ⟨0x2500, 0, 0⟩ = .ok .unpack := by decide
theorem test_decode_fft : decode ⟨0x2600, 0, 0⟩ = .ok .fft := by decide
theorem test_decode_ifft : decode ⟨0x2700, 0, 0⟩ = .ok .ifft := by decide
theorem test_decode_rdparam : decode ⟨0x3004, 0, 0⟩ = .ok (.rdparam 4) := by decide

/-- A table word holds `CW` in its low 16 bits, then `A`, then `B` (log entry 10). -/
theorem test_table_word : decodeTableWord 48 0x2710_7530_0100 = some (.ssub 30000 10000) := by decide

/-- With 16 bits given the operand words are 0. -/
theorem test_table_word_short : decodeTableWord 16 0x1905 = some (.wrbuf .pcmo 5 0) := by decide

/-! ### Well-formedness: a term for each check, and the check refuses it -/

theorem test_illegal_arith_low : decode ⟨0x0001, 0, 0⟩ = .error .arithReserved := by decide
theorem test_illegal_arith_funct : decode ⟨0x0500, 0x1234, 0x5678⟩ = .error .arithFunct := by decide
theorem test_illegal_frame_low : decode ⟨0x2180, 0, 0⟩ = .error .frameReserved := by decide
theorem test_illegal_frame_funct : decode ⟨0x2800, 0, 0⟩ = .error .frameFunct := by decide
theorem test_illegal_param : decode ⟨0x3100, 0, 0⟩ = .error .paramReserved := by decide
theorem test_illegal_class : decode ⟨0x4000, 0, 0⟩ = .error .noClass := by decide
theorem test_legalCW_refuses :
    ([0x0001, 0x0500, 0x0F00, 0x2180, 0x2800, 0x3100, 0x4000, 0xFFFF].all
      fun w => !legalCW w) = true := by decide
theorem test_validFV_refuses : validFV (Vector.ofFn fun f => if f = 7 then 0x80 else 0) = false := by decide
theorem test_validFV_refuses_pitch :
    validFV (Vector.ofFn fun f => if f = 0 then 0x1000 else 0) = false := by decide

/-- `P2_MIN` = 1 is below the range (00_scope.md R10). -/
theorem test_wf_pitchRange : Cfg.pitchRangeOk { Cfg.ref0 with p2Min := 1 } = false := by decide +kernel
/-- `P2_MAX - P2_MIN` = 4096 leaves field 0. -/
theorem test_wf_pitchWidth : Cfg.pitchRangeOk { Cfg.ref0 with p2Max := 4135 } = false := by decide +kernel
/-- `P2_MIN` = 50 breaks the reset pair (93_implementation_defined.md U3). -/
theorem test_wf_resetPair : Cfg.resetPairOk { Cfg.ref0 with p2Min := 50 } = false := by decide +kernel
theorem test_wf_lagRange : Cfg.lagRangeOk { Cfg.ref0 with lagMax := 160 } = false := by decide +kernel
theorem test_wf_thresholds : Cfg.thresholdsOk { Cfg.ref0 with thMin := 0x8000 } = false := by decide +kernel
/-- `AMP_BITS_V` = 5 needs 60 bits of the 52 (U3). -/
theorem test_wf_ampBits : Cfg.ampBitsOk { Cfg.ref0 with ampBitsV := 5 } = false := by decide +kernel
theorem test_wf_ampOrder : Cfg.ampBitsOk { Cfg.ref0 with ampBitsU := 4 } = false := by decide +kernel
theorem test_wf_quantTables : Cfg.quantTablesOk { Cfg.ref0 with gainN := 63 } = false := by decide +kernel
theorem test_wf_pred : Cfg.predOk { Cfg.ref0 with predCoef := 0xFFFF } = false := by decide +kernel
theorem test_wf_enh : Cfg.enhOk { Cfg.ref0 with enhMax := 16383 } = false := by decide +kernel
/-- `NOISE_M` = 70000 takes `SEED` out of 16 bits (U3). -/
theorem test_wf_noise : Cfg.noiseOk { Cfg.ref0 with noiseM := 70000 } = false := by decide +kernel
theorem test_wf_uvShift : Cfg.uvShiftOk { Cfg.ref0 with uvShift := 16 } = false := by decide +kernel
theorem test_wf_windows :
    Cfg.windowsOk { Cfg.ref0 with awin := Vector.replicate 160 0x8000 } = false := by decide +kernel
theorem test_wf_whole : Cfg.wf { Cfg.ref0 with uvShift := 16 } = false := by decide +kernel

/-! ### The arithmetic unit: worked examples and corners of 40_alu.md R142 to R151 -/

theorem test_sadd_clamps : (sadd 30000 10000, satFlag (exactAdd 30000 10000)) = (32767, true) := by decide
theorem test_sadd_exact : (sadd 0x8000 32767, satFlag (exactAdd 0x8000 32767)) = (0xFFFF, false) := by decide
theorem test_ssub_negation : (ssub 0 0x8000, satFlag (exactSub 0 0x8000)) = (32767, true) := by decide
theorem test_ssub_order : ssub 5 7 = 0xFFFE := by decide
theorem test_smul_floor : (smul 0xFFFF 1, smul 16384 16384) = (0xFFFF, 8192) := by decide
theorem test_smul_saturates : (smul 0x8000 0x8000, satFlag (exactMul 0x8000 0x8000)) = (32767, true) := by decide
theorem test_sshl_fits : (sshl 0xFFFF 15, satFlag (exactShl 0xFFFF 15)) = (0x8000, false) := by decide +kernel
theorem test_sshl_long : (sshl 1 32767, satFlag (exactShl 1 32767)) = (32767, true) := by decide +kernel
theorem test_sshr_floor : (sshr 0xFFFB 1, sshr 5 1) = (0xFFFD, 2) := by decide +kernel
theorem test_sshr_negative_count : (sshr 1 0x8000, sshr 3 0xFFFF) = (32767, 6) := by decide +kernel
theorem test_log2Q : [0, 1, 2, 3, 32767].map log2Q = [0, 0, 256, 384, 3839] := by decide +kernel
theorem test_exp2Q : [0, 1, 256, 384, 3839].map exp2Q = [0, 1, 2, 3, 32704] := by decide +kernel

/-! ### Commands in one step, from reset: 42_buffer_param_access.md, 95_test_vectors.md P5 -/

/-- The response of one step that takes the packet `p` right after reset. -/
def answerTo (p : Packet) : Option Response :=
  match step { State.reset with inbox := [.packet p] } with
  | .next t => t.response
  | _ => none

theorem test_run_sadd : answerTo ⟨0x0000, 0x7530, 0x2710⟩ = some ⟨.ok, true, 32767⟩ := by decide
theorem test_run_rdbuf_end : answerTo ⟨0x130B, 0, 0⟩ = some ⟨.badAddress, false, 0⟩ := by decide
theorem test_run_rdbuf_zero : answerTo ⟨0x1100, 0, 0⟩ = some ⟨.ok, false, 0⟩ := by decide
theorem test_run_wrbuf_order : answerTo ⟨0x19C8, 7, 0⟩ = some ⟨.badAddress, false, 0⟩ := by decide
theorem test_run_wrbuf_access : answerTo ⟨0x1903, 7, 0⟩ = some ⟨.access, false, 0⟩ := by decide
theorem test_run_rdparam_l : answerTo ⟨0x3002, 0, 0⟩ = some ⟨.ok, false, 9⟩ := by decide
theorem test_run_rdparam_five : answerTo ⟨0x3005, 0, 0⟩ = some ⟨.badAddress, false, 0⟩ := by decide
theorem test_run_illegal : answerTo ⟨0x0500, 0x1234, 0x5678⟩ = some ⟨.illegal, false, 0⟩ := by decide
theorem test_run_fetch_word :
    step (State.reset.withFetchWord 16 0x2100) = exec .decode State.reset := by rfl
theorem test_wrbuf_byte : (Buffers.zero.writeCell .bs 10 0x12AB).readCell .bs 10 = 0x00AB := by decide
theorem test_w0_word_reset : (Psrf.resetOf Cfg.ref0).word 0 = 0x474A ∧ (Psrf.resetOf Cfg.ref0).word 1 = 0x0CF6 := by
  decide +kernel
theorem test_response_bits : (Response.bits ⟨.access, false, 0⟩).toNat = 3 * 2 ^ 17 := by decide

/-! ### The packer: 43_bitpacker.md R212, R217 -/

/-- A vector of eight cells from a list. -/
def fvOf (xs : List Nat) : Vector Word 8 := frameVector xs

/-- A bitstream frame from a list of bytes. -/
def bsOf (xs : List Nat) : Vector Byte 11 := Vector.ofFn fun j => BitVec.ofNat 8 (xs.getD j 0)

theorem test_pack : packFrame (fvOf [1, 2, 3, 4, 5, 6, 7, 8]) =
    bsOf [0x00, 0x10, 0x02, 0x00, 0x30, 0x04, 0x00, 0xA0, 0x18, 0x03, 0x88] := by decide +kernel
theorem test_pack_masks : packFrame (fvOf [0xFFFF, 0, 0, 0, 0, 0, 0, 0x80]) = bsOf [0xFF, 0xF0] := by
  decide +kernel
theorem test_unpack : unpackFrame (bsOf [0x12, 0x34, 0x56, 0x78, 0x9A, 0xBC, 0xDE, 0xF0, 0x12, 0x34, 0x56]) =
    fvOf [0x123, 0x456, 0x789, 0xABC, 0x6F7, 0x404, 0x468, 0x56] := by decide +kernel
theorem test_unpack_ones : unpackFrame (Vector.replicate 11 0xFF) =
    fvOf [4095, 4095, 4095, 4095, 2047, 2047, 2047, 127] := by decide +kernel

/-! ### The units: worked examples of files 41 to 48 -/

theorem test_bitrev8 : [1, 2, 3, 6].map bitrev8 = [128, 64, 192, 96] := by decide +kernel
theorem test_sinTab : [64, 192, 0, 100].map sinVal = [32767, -32767, 0, 20787] := by decide +kernel
theorem test_w0Tab : [0, 1, 41, 207].map (w0Tab 39) = [217466698, 212097150, 106707262, 34847604] := by
  decide +kernel
theorem test_deriveLK : [0, 4, 116, 120, 207].map (fun b => deriveLK (w0Tab 39 b)) =
    [(9, 3), (10, 4), (36, 12), (37, 12), (56, 12)] := by decide +kernel
theorem test_bins : (binLo 1 217466698, binHi 1 217466698, cenLo 1 217466698, cenHi 1 217466698) =
    (7, 20, 10, 17) := by decide +kernel
theorem test_parabola : [parabolaOffset 90 100 98, parabolaOffset 98 100 90, parabolaOffset 97 100 99,
    parabolaOffset 96 100 97] = [1, -1, 1, 0] := by decide +kernel
theorem test_median3 : [median3 80 39 39, median3 80 80 39, median3 39 80 60] = [39, 80, 60] := by decide
/-- 45_voicing.md R258 (d). -/
theorem test_voicing : [(1000, 900), (1000, 400), (1000, 700)].map (fun x => bandError x.1 x.2) =
    [3276, 19660, 9830] ∧ trackedMax Cfg.ref0 20000 [3276, 19660, 9830] = 19799 ∧
    voicingThreshold Cfg.ref0 19799 = 9899 ∧ voicingWord 9899 [3276, 19660, 9830] = 5 := by decide +kernel
/-- 46_amplitude.md R287 (a). -/
theorem test_nearest : [96, -500, 9999].map (nearest [0, 64, 128, 192] 4) = [1, 0, 3] := by decide +kernel
/-- R287 (b), harmonics 4 and 5. -/
theorem test_enhance : [4, 5, 7].map (enhanceAmp Cfg.ref0 [100, 100, 100, 100, 400, 100, 100, 100, 100] 9) =
    [50, 480, 100] := by decide +kernel
/-- R287 (c), harmonic 7 of eighteen. -/
theorem test_interpLog :
    interpLog (Vector.ofFn fun i => if i.val < 3 then 1024 else 256) 9 18 7 = 2304 := by decide +kernel
/-- R287 (d). -/
theorem test_string : stringFields (amplitudeString Cfg.ref0 5 [9, 5, 12]) = [0x9B8, 0, 0, 0, 0] := by
  decide +kernel
/-- 47_voiced_synth.md R304 (a), (b). -/
theorem test_oscillator : oscillator 1000 0x40000000 = 999 ∧ (oscillator 1000 0xC0000000).toInt = -1000 := by
  decide +kernel
theorem test_ampRamp : [0, 1, 80, 159].map (ampAt 0 1600) = [0, 10, 800, 1590] := by decide +kernel
/-- 48_unvoiced_synth.md R321 (a), two draws, and (c). -/
theorem test_noise : noiseNext Cfg.ref0 0 = 11213 ∧ noiseNext Cfg.ref0 11213 = 16136 ∧
    (noiseSample Cfg.ref0 11213).toInt = -15349 := by decide +kernel
theorem test_shape : (shapeWord Cfg.ref0 (u16 (-700)) 1000).toInt = -171 := by decide +kernel
/-- A butterfly of the first stage, forward and inverse, by hand from 41_fft.md R173: the twiddle is
(32767, 0), so the rotated lower input is 99 of 100. -/
theorem test_butterfly : butterfly false (7, 0) (100, 0) (twiddle false 0) =
    ((52, 0), (u16 (-46), 0)) ∧ butterfly true (7, 0) (100, 0) (twiddle true 0) =
    ((106, 0), (u16 (-92), 0)) := by decide +kernel
/-- The frame shift moves `PP1` before `PC` overwrites it (49_frame_commands.md R331). -/
theorem test_frameShift :
    let p := Psrf.frameShift { Psrf.resetOf Cfg.ref0 with pc := 5, pp1 := 7, pp2 := 9, v := 3, lp := 1 }
    (p.pc, p.pp1, p.pp2, p.vp, p.lp) = (5, 5, 7, 3, 9) := by decide +kernel
/-- The clamp of `FV[0]` compares the whole cell and `FV[1]` is masked (R335; 45_voicing.md R258 (e)). -/
theorem test_decode_clamps : frameIndex Cfg.ref0 (fvOf [0x1000]) = 207 ∧ maskVoicing 0xFFF 3 = 7 ∧
    maskVoicing 0xFFFF 12 = 0x0FFF := by decide +kernel

/-- The stage pairs places 0 and 1, which bit reversal fills from places 0 and 128 (R172, R173). -/
theorem test_fft_stage :
    cellD (fftStage false (fftLoad ((Vector.replicate 256 0).set 128 100) (Vector.replicate 256 0)) 1) 1
      (0, 0) = (u16 (-49), 0) := by decide +kernel

/-! ### Witnesses: for every obligation with hypotheses, a concrete case that meets them all -/

/-- Right after reset, with one packet waiting. -/
def withPacket (p : Packet) : State := { State.reset with inbox := [.packet p] }

/-- Right after reset, with a voicing word that sets the twelve band bits. -/
def allVoiced : State := State.reset.withFV (fvOf [0, 0xFFF])

theorem witness_OpcodeMapIsTheDecoder :
    (⟨"WRBUF", 0x1800, 0xF800⟩ ∈ opcodeMap ∧ OpcodeRow.selects ⟨"WRBUF", 0x1800, 0xF800⟩ 0x1FFF = true) ∧
      legalCW 0x3100 = false := by decide

theorem witness_DecodedPacketCarriesItsOperands :
    (decode ⟨0x1805, 0xFF85, 77⟩ = .ok (.wrbuf .pcmi 5 0xFF85) ∧ usesA (.wrbuf .pcmi 5 0xFF85) = true ∧
      usesB (.wrbuf .pcmi 5 0xFF85) = false) ∧
    (decode ⟨0x0000, 1, 2⟩ = .ok (.sadd 1 2) ∧ usesB (.sadd 1 2) = true) ∧
    (decode ⟨0x30FF, 1, 2⟩ = .ok (.rdparam 255) ∧ usesA (.rdparam 255) = false) := by decide

theorem witness_StepRunsTheDecodedCommand :
    (withPacket ⟨0x2100, 0, 0⟩).inbox = .packet ⟨0x2100, 0, 0⟩ :: [] ∧
      decode ⟨0x2100, 0, 0⟩ = .ok .decode := ⟨rfl, by decide⟩

/-- Also for `StatusPriority`. -/
theorem witness_EveryPacketIsAnswered :
    (withPacket ⟨0x19C8, 7, 0⟩).inbox = .packet ⟨0x19C8, 7, 0⟩ :: [] := rfl

theorem witness_ErrorResponseChangesNothing :
    ∃ t r, (withPacket ⟨0x1903, 7, 0⟩).inbox = .packet ⟨0x1903, 7, 0⟩ :: [] ∧
      step (withPacket ⟨0x1903, 7, 0⟩) = .next t ∧ t.response = some r ∧ r.st ≠ .ok :=
  ⟨_, _, rfl, rfl, rfl, by decide⟩

theorem witness_IdleStepKeepsTheState : State.reset.inbox = [] := rfl

theorem witness_ResetValues : State.inbox { State.reset with inbox := [.reset] } = .reset :: [] := rfl

theorem witness_LogAndAntilogBounds :
    ((0 : Nat) ≤ 32767 ∧ 32767 ≤ 32767) ∧ 3839 ≤ 3839 ∧ (1 ≤ 32767 ∧ 32767 ≤ 32767) ∧ 1 ≤ 1 := by decide

theorem witness_IsqrtIsTheLargestRoot : 3 * 3 ≤ 9 := by decide

/-- Each clause at the edge of its range: the last cell, the first index past it, `PCMO` in range. -/
theorem witness_WrbufWritesOneCell :
    ((10 : BitVec 8).toNat < spaceSize .bs ∧ Space.bs ≠ .pcmo) ∧ spaceSize .bs ≤ (11 : BitVec 8).toNat ∧
      (159 : BitVec 8).toNat < spaceSize .pcmo ∧ spaceSize .absent7 ≤ (0 : BitVec 8).toNat := by decide

theorem witness_RdparamAnswersTheViewWord :
    5 ≤ (5 : BitVec 8).toNat ∧ (4 : BitVec 8).toNat < 5 ∧ (0 : BitVec 8).toNat < 5 := by decide

/-- Also for `UnpackReadsEveryBit`: the top bit of the widest field and the only place of field 7. -/
theorem witness_PackPlacesEveryBit : 11 < fieldWidth 0 ∧ 6 < fieldWidth 7 := by decide

theorem witness_PackerIsLossless :
    validFV (State.reset.withFV (fvOf [4095, 4095, 4095, 4095, 2047, 2047, 2047, 127])).bufs.fv = true := by
  show validFV (fvOf [4095, 4095, 4095, 4095, 2047, 2047, 2047, 127]) = true
  decide +kernel

theorem witness_TransformsCompleteAndKeepZero :
    (Instr.ifft = .fft ∨ Instr.ifft = .ifft) ∧
      ∀ k : Fin 256, State.reset.bufs.spr[k] = 0 ∧ State.reset.bufs.spi[k] = 0 :=
  ⟨.inr rfl, fun k => by simp [Buffers.zero]⟩

/-- Right after reset, with `SPR[0]` = 32767. -/
def impulse : State :=
  { State.reset with bufs := { Buffers.zero with spr := Vector.ofFn fun k => if k.val = 0 then 32767 else 0 } }

theorem witness_FftOfAnImpulseIsFlat :
    ∀ k : Fin 256, impulse.bufs.spr[k] = (if k.val = 0 then 32767 else 0) ∧ impulse.bufs.spi[k] = 0 :=
  fun k => by simp [impulse, Buffers.zero]

theorem witness_SineTableAndBitReversal : 255 < 256 := by decide

theorem witness_FrequencyTableIsDecreasing :
    Cfg.ref0.wf = true ∧ 207 ≤ Cfg.ref0.b0Max ∧ 206 + 1 ≤ Cfg.ref0.b0Max := by decide +kernel

theorem witness_DerivedCountsAndBands : 0 < 34847604 ∧ 11 < (deriveLK 34847604).2 := by decide +kernel

/-- Harmonic 1 of the shortest period: its last bin. -/
theorem witness_HarmonicIntervalsTile :
    1 ≤ 1 ∧ binLo 1 217466698 ≤ 19 ∧ 19 < binHi 1 217466698 := by decide +kernel

theorem witness_MedianAbsorbsASingleJump :
    State.reset.psrf.pc = State.reset.psrf.pp1 ∧ State.reset.psrf.pc.toNat ≤ Config.cfg.b0Max :=
  ⟨rfl, Nat.zero_le _⟩

/-- A configuration with the two lags 158 and 159. -/
def twoLags : Cfg := { Cfg.ref0 with lagMin := 158, lagMax := 159 }

/-- A frame on which lag 159 beats lag 158. -/
def laterLag (n : Nat) : Int := if n = 0 ∨ n = 1 ∨ n = 158 then 1 else if n = 159 then 2 else 0

/-- A found lag, a smaller lag that qualifies too, and a frame with no candidate. -/
theorem witness_CoarseSearchIsTheFirstBest :
    twoLags.wf = true ∧ coarseSearch twoLags laterLag = some (159, 4, 4) ∧
      (twoLags.lagMin ≤ 158 ∧ 158 ≤ twoLags.lagMax ∧ 0 < autoCorr laterLag 158 ∧ 158 < 159) ∧
      coarseSearch twoLags (fun _ => 0) = none := by decide +kernel

theorem witness_EncodingSilence :
    (∀ i : Fin 160, State.reset.bufs.pcmi[i] = 0) ∧ State.reset.psrf.pc.toNat ≤ Config.cfg.b0Max :=
  ⟨fun i => by simp [Buffers.zero], Nat.zero_le _⟩

theorem witness_NearestIsTheFirstNearest :
    1 ≤ 4 ∧ 4 ≤ [(0 : Word), 64, 128, 192].length ∧ nearest [0, 64, 128, 192] 4 96 = 1 ∧ 0 < 1 ∧ 3 < 4 := by
  decide +kernel

theorem witness_AmplitudeStringRoundTrip :
    [1, 1, 1].length ≤ 12 ∧
      (∀ kk < [1, 1, 1].length, [1, 1, 1].getD kk 0 < 2 ^ indexBits Config.cfg 5 kk) ∧
      [41, 5, 24].length = 3 := by
  refine ⟨by decide, fun kk h => ?_, by decide⟩
  have hb : 1 ≤ indexBits Config.cfg 5 kk := by
    unfold indexBits
    split
    · exact Nat.le_of_lt (Nat.lt_of_le_of_lt Config.ampBits.1 Config.ampBits.2.1)
    · exact Config.ampBits.1
  have h1 : [1, 1, 1].getD kk 0 = 1 := by
    have : kk = 0 ∨ kk = 1 ∨ kk = 2 := by simp at h; omega
    rcases this with rfl | rfl | rfl <;> rfl
  rw [h1]
  exact Nat.one_lt_two_pow (by omega)

theorem witness_EnhancementIsBounded :
    quantAmp [100, 400, 32704] 3 ≤ 32767 ∧ (32767 ≤ 32767 ∧ 1 ≤ 9 ∧ 9 ≤ 9) := by decide

theorem witness_PredictionIsBounded :
    Cfg.ref0.wf = true ∧ 0 ∈ predict Cfg.ref0 (Vector.replicate 56 1024) 1 1 :=
  ⟨Cfg.ref0_wf, by decide +kernel⟩

theorem witness_ZeroFrameKeepsAmplitudesFlat :
    (∀ f : Fin 8, State.reset.bufs.fv[f] = 0) ∧ 1 ≤ State.reset.psrf.l.toNat ∧
      State.reset.psrf.l.toNat ≤ 56 ∧
      ∀ i : Fin 56, i.val < State.reset.psrf.l.toNat → State.reset.psrf.m[i] = 0 :=
  ⟨fun f => by simp [Buffers.zero], by decide, by decide, fun i _ => by simp [Psrf.resetOf]⟩

theorem witness_OscillatorIsBoundedByItsAmplitude : 0 ≤ (32767 : Word).toInt := by decide

/-- The first and the last slot of the nine harmonics after reset, and the first slot above them. -/
theorem witness_DecodeAdvancesThePhases : (0 : Fin 56).val + 1 ≤ 9 ∧ (8 : Fin 56).val + 1 ≤ 9 := by decide

theorem witness_SeedAdvancesBy256Draws : Instr.decodebits = .decode ∨ Instr.decodebits = .decodebits :=
  .inr rfl

theorem witness_SpectralGainIsTheOwnersAmplitude :
    let p := Psrf.resetOf Cfg.ref0
    p.l.toNat ≤ 56 ∧ (1 ≤ 9 ∧ 9 ≤ p.l.toNat ∧ binLo 9 p.w0.toNat ≤ 123 ∧ 123 < binHi 9 p.w0.toNat) ∧
      ∀ l < 10, 1 ≤ l → l ≤ p.l.toNat → ¬(binLo l p.w0.toNat ≤ 124 ∧ 124 < binHi l p.w0.toNat) := by
  decide +kernel

theorem witness_AllVoicedFrameHasNoNoise : ∀ b < 12, allVoiced.bufs.fv[1].getLsbD b = true := by
  show ∀ b < 12, (fvOf [0, 0xFFF])[1].getLsbD b = true
  decide +kernel

theorem witness_UnvoicedFrameIgnoresPhases : State.reset.psrf.v = 0 ∧ State.reset.bufs.fv[1] = 0 :=
  ⟨rfl, by decide⟩

theorem witness_TailHasNoFeedback : 96 ≤ (96 : Fin 160).val := by decide

/-- Also for `FrameCommandsKeepCountsConsistent` and, with `fft`, for `OnlyFrameCommandsWriteThePsrf`. -/
theorem witness_FrameCommandsShiftTheShadows :
    isFrameCommand .encodebits = true ∧ isFrameCommand .fft = false := by decide

/-- A cell the command does not write, two states that agree where it reads, and a cell it writes. -/
theorem witness_CommandsTouchOnlyListedCells :
    writesCell .encode .pcmi 3 = false ∧
      (State.reset.psrf = allVoiced.psrf ∧ ∀ sp n, readsCell .encode sp n = true →
        State.reset.bufs.readCell sp n = allVoiced.bufs.readCell sp n) ∧
      writesCell .encode .fv 1 = true :=
  ⟨by decide, ⟨rfl, fun sp n h => by cases sp <;> first | rfl | cases h⟩, by decide⟩

theorem witness_DecoderTracksTheEncoder : Tracks State.reset State.reset :=
  ⟨rfl, rfl, rfl, rfl, rfl, rfl, rfl, rfl, rfl, rfl⟩

/-- `W0TAB(0)` fits the register. -/
theorem reset_w0 : (Psrf.resetOf Config.cfg).w0.toNat = w0Tab Config.cfg.p2Min 0 := by
  have h := Config.pitchRange.1
  have hlt : w0Tab Config.cfg.p2Min 0 < 2 ^ 32 := by
    unfold w0Tab
    rw [Nat.div_lt_iff_lt_mul (by omega)]
    omega
  simp only [Psrf.resetOf, BitVec.toNat_ofNat]
  exact Nat.mod_eq_of_lt hlt

/-- A state with a frame command waiting that meets the invariant, and its step. -/
theorem witness_StepKeepsTheInvariant :
    (withPacket ⟨0x2200, 0, 0⟩).Inv ∧ ∃ t, step (withPacket ⟨0x2200, 0, 0⟩) = .next t :=
  ⟨{ freq := ⟨0, Nat.zero_le _, reset_w0⟩
     pair := by
       show (9, 3) = deriveLK (Psrf.resetOf Config.cfg).w0.toNat
       rw [reset_w0, Config.resetPair]
     harmonics := by decide
     bands := by decide
     flags := by decide
     amps := fun i => by simp [withPacket, Psrf.resetOf]
     ampsAbove := fun i _ => by simp [withPacket, Psrf.resetOf]
     prevAmps := fun i => by simp [withPacket, Psrf.resetOf]
     history := ⟨Nat.zero_le _, Nat.zero_le _, Nat.zero_le _⟩
     threshold := by decide
     noise := by
       have h := Config.noise
       show (BitVec.ofNat 16 Config.cfg.noiseSeed0).toNat < Config.cfg.noiseM
       rw [BitVec.toNat_ofNat]
       exact Nat.lt_of_le_of_lt (Nat.mod_le _ _) h.2.2.2.2.1
     reservedZero := rfl },
   ⟨_, rfl⟩⟩

end Sys2Proof.Tests
end

section
/-! PROOFS. The table of buffers of 20_memory.md R100: which cells a command reads and writes. -/

namespace Sys2Proof.Machine

/-! ### What it means to touch only listed cells -/

/-- Two memories read alike at every cell of a set of cells. -/
def AgreeOn (cells : Space → Nat → Bool) (m m' : Buffers) : Prop :=
  ∀ sp n, cells sp n = true → m.readCell sp n = m'.readCell sp n

/-- A change of state that keeps every cell outside `writes`, and whose registers, response and cells
in `writes` depend on the registers and on the cells in `reads` only. -/
structure TouchesOnly (reads writes : Space → Nat → Bool) (f : State → State) : Prop where
  /-- the cells not written stay -/
  keeps : ∀ s sp n, writes sp n = false → (f s).bufs.readCell sp n = s.bufs.readCell sp n
  /-- what comes out is fixed by the registers and the cells read -/
  depends : ∀ s s', s.psrf = s'.psrf → AgreeOn reads s.bufs s'.bufs →
    (f s).psrf = (f s').psrf ∧ (f s).response = (f s').response ∧
      AgreeOn writes (f s).bufs (f s').bufs

/-- A command completes, and what it does is a change of state that touches only the cells its row of
20_memory.md R100 lists. -/
def HasRow (i : Instr) : Prop :=
  ∃ f : State → State, (∀ s, exec i s = .next (f s)) ∧ TouchesOnly (readsCell i) (writesCell i) f

/-- One change after another, where the second reads only what the first has written: the cells the
first reads are read, and the cells either writes are written. -/
theorem TouchesOnly.comp {reads writes reads' writes' : Space → Nat → Bool} {f g : State → State}
    (hf : TouchesOnly reads writes f) (hg : TouchesOnly reads' writes' g)
    (fed : ∀ sp n, reads' sp n = true → writes sp n = true) :
    TouchesOnly reads (fun sp n => writes sp n || writes' sp n) (g ∘ f) where
  keeps s sp n hw := by
    obtain ⟨hwf, hwg⟩ := Bool.or_eq_false_iff.mp hw
    exact (hg.keeps (f s) sp n hwg).trans (hf.keeps s sp n hwf)
  depends s s' hp hr := by
    obtain ⟨hpf, -, hbf⟩ := hf.depends s s' hp hr
    obtain ⟨hpg, hrg, hbg⟩ := hg.depends (f s) (f s') hpf fun sp n h => hbf sp n (fed sp n h)
    refine ⟨hpg, hrg, fun sp n hw => ?_⟩
    cases hwg : writes' sp n with
    | true => exact hbg sp n hwg
    | false =>
      have hwf : writes sp n = true := by simpa [hwg] using hw
      calc (g (f s)).bufs.readCell sp n
          = (f s).bufs.readCell sp n := hg.keeps (f s) sp n hwg
        _ = (f s').bufs.readCell sp n := hbf sp n hwf
        _ = (g (f s')).bufs.readCell sp n := (hg.keeps (f s') sp n hwg).symm

/-! ### From cells to arrays: memories that agree on a whole space hold the same array -/

namespace AgreeOn

variable {cells : Space → Nat → Bool} {m m' : Buffers}

theorem pcmi_eq (h : AgreeOn cells m m') (all : ∀ n, cells .pcmi n = true) : m.pcmi = m'.pcmi :=
  vector_ext_cellD 0 fun n => h .pcmi n (all n)

theorem fv_eq (h : AgreeOn cells m m') (all : ∀ n, cells .fv n = true) : m.fv = m'.fv :=
  vector_ext_cellD 0 fun n => h .fv n (all n)

theorem bs_eq (h : AgreeOn cells m m') (all : ∀ n, cells .bs n = true) : m.bs = m'.bs :=
  vector_ext_cellD 0 fun n => setWidth_byte_inj (h .bs n (all n))

theorem spectrum_eq (h : AgreeOn cells m m') (re : ∀ n, cells .spr n = true)
    (im : ∀ n, cells .spi n = true) : m.spectrum = m'.spectrum :=
  Prod.ext (vector_ext_cellD 0 fun n => h .spr n (re n)) (vector_ext_cellD 0 fun n => h .spi n (im n))

end AgreeOn

/-- Past the end of its space a cell reads as 0. -/
theorem readCell_of_spaceSize_le (m : Buffers) {space : Space} {n : Nat} (h : spaceSize space ≤ n) :
    m.readCell space n = 0 := by
  cases space with
  | absent6 | absent7 => rfl
  | bs => exact congrArg (BitVec.setWidth 16) (cellD_of_ge m.bs h 0)
  | pcmi | pcmo | fv | spr | spi => exact cellD_of_ge _ h 0

/-! ### Commands that only answer: arithmetic, reads, and everything answered with an error -/

/-- A command that only answers touches no cell beyond those its response depends on. A cell listed as
written may be one past the end of its space, as in a `WRBUF` that is answered `BAD_ADDRESS`. -/
theorem touchesOnly_respond {reads writes : Space → Nat → Bool} {r : State → Response}
    (fixed : ∀ s s', s.psrf = s'.psrf → AgreeOn reads s.bufs s'.bufs → r s = r s')
    (absent : ∀ sp n, writes sp n = true → spaceSize sp ≤ n) :
    TouchesOnly reads writes fun s => s.respond (r s) where
  keeps _ _ _ _ := rfl
  depends s s' hp hr :=
    ⟨hp, congrArg some (fixed s s' hp hr), fun sp n hw =>
      (readCell_of_spaceSize_le s.bufs (absent sp n hw)).trans
        (readCell_of_spaceSize_le s'.bufs (absent sp n hw)).symm⟩

/-- A response that depends on nothing, from a command that writes nothing. -/
theorem touchesOnly_respond_const (reads : Space → Nat → Bool) (r : Response) :
    TouchesOnly reads (fun _ _ => false) fun s => s.respond r :=
  touchesOnly_respond (fun _ _ _ _ => rfl) nofun

/-- The response of `RDPARAM` (42_buffer_param_access.md R194). -/
def viewResponse (p : Psrf) (sel : BitVec 8) : Response :=
  match p.viewWord sel with
  | some y => ⟨.ok, false, y⟩
  | none => ⟨.badAddress, false, 0⟩

theorem execRdparam_eq (sel : BitVec 8) (s : State) :
    execRdparam sel s = .next (s.respond (viewResponse s.psrf sel)) := by
  unfold execRdparam viewResponse
  cases s.psrf.viewWord sel <;> rfl

theorem hasRow_rdparam (sel : BitVec 8) : HasRow (.rdparam sel) :=
  ⟨fun s => s.respond (viewResponse s.psrf sel), execRdparam_eq sel,
    touchesOnly_respond (fun _ _ hp _ => congrArg (viewResponse · sel) hp) nofun⟩

theorem hasRow_rdbuf (space : Space) (index : BitVec 8) : HasRow (.rdbuf space index) := by
  by_cases inside : index.toNat < spaceSize space
  · refine ⟨fun s => s.answer (s.bufs.readCell space index.toNat) false,
      fun s => (execRdbuf_eq space index s).trans (by rw [if_pos inside]),
      touchesOnly_respond (fun s s' _ hr => ?_) nofun⟩
    have same : s.bufs.readCell space index.toNat = s'.bufs.readCell space index.toNat :=
      hr space index.toNat (by simp [readsCell])
    rw [same]
  · exact ⟨fun s => s.raise .badAddress,
      fun s => (execRdbuf_eq space index s).trans (by rw [if_neg inside]),
      touchesOnly_respond_const _ _⟩

/-! ### `WRBUF`, and the answer of a command that gives no result -/

/-- Two commands that give no result answer alike. Stated once, so that no proof compares the states
they leave. -/
theorem done_response_eq (s s' : State) : s.done.response = s'.done.response := rfl

theorem writesCell_wrbuf_iff {space sp : Space} {index : BitVec 8} {data : Word} {n : Nat} :
    writesCell (.wrbuf space index data) sp n = true ↔
      (sp = space ∧ n = index.toNat) ∧ hostWritable space = true := by
  simp [writesCell, eq_comm (a := sp)]

/-- A host write in range to a space the host may write. -/
theorem touchesOnly_writeCell {space : Space} (index : BitVec 8) (data : Word)
    (writable : hostWritable space = true) (inside : index.toNat < spaceSize space) :
    TouchesOnly (readsCell (.wrbuf space index data)) (writesCell (.wrbuf space index data))
      fun s => State.done { s with bufs := s.bufs.writeCell space index.toNat data } where
  keeps s sp n hw := by
    have other : ¬(sp = space ∧ n = index.toNat ∧ index.toNat < spaceSize space) :=
      fun ⟨hsp, hn, _⟩ => Bool.eq_false_iff.mp hw (writesCell_wrbuf_iff.mpr ⟨⟨hsp, hn⟩, writable⟩)
    exact (readCell_writeCell ..).trans (if_neg other)
  depends s s' hp _ := by
    refine ⟨hp, done_response_eq _ _, fun sp n hw => ?_⟩
    obtain ⟨⟨hsp, hn⟩, -⟩ := writesCell_wrbuf_iff.mp hw
    have stored (m : Buffers) :
        (m.writeCell space index.toNat data).readCell sp n = storedWord space data :=
      (readCell_writeCell ..).trans (if_pos ⟨hsp, hn, inside⟩)
    exact (stored s.bufs).trans (stored s'.bufs).symm

theorem hasRow_wrbuf (space : Space) (index : BitVec 8) (data : Word) :
    HasRow (.wrbuf space index data) := by
  by_cases inside : index.toNat < spaceSize space
  · by_cases writable : hostWritable space = true
    · exact ⟨_,
        fun s => (execWrbuf_eq space index data s).trans (by rw [if_pos inside, if_pos writable]),
        touchesOnly_writeCell index data writable inside⟩
    · exact ⟨fun s => s.raise .access,
        fun s => (execWrbuf_eq space index data s).trans (by rw [if_pos inside, if_neg writable]),
        touchesOnly_respond (fun _ _ _ _ => rfl) fun _ _ hw =>
          absurd (writesCell_wrbuf_iff.mp hw).2 writable⟩
  · refine ⟨fun s => s.raise .badAddress,
      fun s => (execWrbuf_eq space index data s).trans (by rw [if_neg inside]),
      touchesOnly_respond (fun _ _ _ _ => rfl) fun sp n hw => ?_⟩
    obtain ⟨⟨rfl, rfl⟩, -⟩ := writesCell_wrbuf_iff.mp hw
    exact Nat.le_of_not_lt inside

/-! ### The transforms and the bit packer -/

/-- `FFT` and `IFFT` replace the spectral buffer by a function of itself (41_fft.md R175, R176). -/
theorem touchesOnly_transform (inverse : Bool) :
    TouchesOnly (fun sp _ => isSpectral sp) (fun sp _ => isSpectral sp) fun s =>
      State.done { s with bufs := s.bufs.withSpectrum (fftCore inverse s.bufs.spectrum) } where
  keeps s sp n hw := by
    cases sp with
    | spr | spi => cases hw
    | pcmi | pcmo | fv | bs | absent6 | absent7 => rfl
  depends s s' hp hr := by
    have out : fftCore inverse s.bufs.spectrum = fftCore inverse s'.bufs.spectrum :=
      congrArg _ (hr.spectrum_eq (fun _ => rfl) fun _ => rfl)
    refine ⟨hp, done_response_eq _ _, fun sp n hw => ?_⟩
    cases sp with
    | spr => exact congrArg (fun x => cellD x.1 n 0) out
    | spi => exact congrArg (fun x => cellD x.2 n 0) out
    | pcmi | pcmo | fv | bs | absent6 | absent7 => cases hw

theorem touchesOnly_pack :
    TouchesOnly (readsCell .pack) (writesCell .pack) fun s =>
      State.done { s with bufs := s.bufs.packed } where
  keeps s sp n hw := by
    cases sp with
    | bs => cases hw
    | pcmi | pcmo | fv | spr | spi | absent6 | absent7 => rfl
  depends s s' hp hr := by
    have fv : s.bufs.fv = s'.bufs.fv := hr.fv_eq fun _ => rfl
    refine ⟨hp, done_response_eq _ _, fun sp n hw => ?_⟩
    cases sp with
    | bs => exact congrArg (fun v => (cellD (packFrame v) n 0).setWidth 16) fv
    | pcmi | pcmo | fv | spr | spi | absent6 | absent7 => cases hw

theorem touchesOnly_unpack :
    TouchesOnly (readsCell .unpack) (writesCell .unpack) fun s =>
      State.done { s with bufs := s.bufs.unpacked } where
  keeps s sp n hw := by
    cases sp with
    | fv => cases hw
    | pcmi | pcmo | bs | spr | spi | absent6 | absent7 => rfl
  depends s s' hp hr := by
    have bs : s.bufs.bs = s'.bufs.bs := hr.bs_eq fun _ => rfl
    refine ⟨hp, done_response_eq _ _, fun sp n hw => ?_⟩
    cases sp with
    | fv => exact congrArg (fun v => cellD (unpackFrame v) n 0) bs
    | pcmi | pcmo | bs | spr | spi | absent6 | absent7 => cases hw

/-! ### The frame commands -/

/-- The analysis stages look at no buffer but the frame in `PCMI` (49_frame_commands.md R332). -/
theorem encodeAnalysis_congr (c : Cfg) (p : Psrf) {m m' : Buffers} (h : m.pcmi = m'.pcmi) :
    encodeAnalysis c p m = encodeAnalysis c p m' := by
  have samples : pcmSample m = pcmSample m' := by
    funext n
    simp only [pcmSample, h]
  have spectrum : analysisSpectrum c m = analysisSpectrum c m' := by
    simp only [analysisSpectrum, windowedFrame, h]
  unfold encodeAnalysis
  rw [samples, spectrum]

theorem touchesOnly_encode (c : Cfg) :
    TouchesOnly (readsCell .encode) (writesCell .encode) fun s => (encodeFrame c s).done where
  keeps s sp n hw := by
    cases sp with
    | fv | spr | spi => cases hw
    | pcmi | pcmo | bs | absent6 | absent7 => rfl
  depends s s' hp hr := by
    have analysis : encodeAnalysis c s.psrf.frameShift s.bufs =
        encodeAnalysis c s'.psrf.frameShift s'.bufs := by
      rw [hp]
      exact encodeAnalysis_congr c _ (hr.pcmi_eq fun _ => rfl)
    have regs : (encodeFrame c s).psrf = (encodeFrame c s').psrf := by
      rw [encodeFrame_psrf, encodeFrame_psrf, analysis, hp]
    refine ⟨regs, done_response_eq _ _, fun sp n hw => ?_⟩
    cases sp with
    | fv => exact congrArg (fun a => cellD a.fv n 0) analysis
    | spr => exact congrArg (fun a => cellD a.spectrum.1 n 0) analysis
    | spi => exact congrArg (fun a => cellD a.spectrum.2 n 0) analysis
    | pcmi | pcmo | bs | absent6 | absent7 => cases hw

theorem touchesOnly_decode (c : Cfg) :
    TouchesOnly (readsCell .decode) (writesCell .decode) fun s => (decodeFrame c s).done where
  keeps s sp n hw := by
    cases sp with
    | pcmo | spr | spi => cases hw
    | pcmi | fv | bs | absent6 | absent7 => rfl
  depends s s' hp hr := by
    have fv : s.bufs.fv = s'.bufs.fv := hr.fv_eq fun _ => rfl
    have regs : decodedRegs c s = decodedRegs c s' := by
      simp only [decodedRegs, hp, fv]
    refine ⟨congrArg (Psrf.synthesized c) regs, done_response_eq _ _, fun sp n hw => ?_⟩
    cases sp with
    | pcmo => exact congrArg (fun p => cellD (mixedFrame c p) n 0) regs
    | spr => exact congrArg (fun p => cellD (noiseOutput c p).1 n 0) regs
    | spi => exact congrArg (fun p => cellD (noiseOutput c p).2 n 0) regs
    | pcmi | fv | bs | absent6 | absent7 => cases hw

/-- `ENCODEBITS` writes what `ENCODE` and `PACK` write (49_frame_commands.md R336). -/
theorem writesCell_encodebits : writesCell .encodebits =
    fun sp n => writesCell .encode sp n || writesCell .pack sp n :=
  funext₂ fun _ _ => Bool.or_right_comm ..

/-- `DECODEBITS` writes what `UNPACK` and `DECODE` write (49_frame_commands.md R337). -/
theorem writesCell_decodebits : writesCell .decodebits =
    fun sp n => writesCell .unpack sp n || writesCell .decode sp n :=
  funext₂ fun _ _ => Bool.or_assoc ..

/-- `PACK` reads only the frame vector, which `ENCODE` has written. -/
theorem hasRow_encodebits : HasRow .encodebits := by
  refine ⟨_, fun _ => rfl, ?_⟩
  rw [writesCell_encodebits]
  exact (touchesOnly_encode Config.cfg).comp touchesOnly_pack fun sp n h => by
    have hsp : (sp == .fv) = true := h
    simp [writesCell, hsp]

/-- `DECODE` reads only the frame vector, which `UNPACK` has written. -/
theorem hasRow_decodebits : HasRow .decodebits := by
  refine ⟨_, fun _ => rfl, ?_⟩
  rw [writesCell_decodebits]
  exact touchesOnly_unpack.comp (touchesOnly_decode Config.cfg) fun _ _ h => h

/-! ### The table as a whole -/

/-- Every command completes, and touches no cell that its row of 20_memory.md R100 does not list. -/
theorem hasRow (i : Instr) : HasRow i :=
  match i with
  | .sadd _ _ => ⟨_, fun _ => rfl, touchesOnly_respond_const _ _⟩
  | .ssub _ _ => ⟨_, fun _ => rfl, touchesOnly_respond_const _ _⟩
  | .smul _ _ => ⟨_, fun _ => rfl, touchesOnly_respond_const _ _⟩
  | .sshl _ _ => ⟨_, fun _ => rfl, touchesOnly_respond_const _ _⟩
  | .sshr _ _ => ⟨_, fun _ => rfl, touchesOnly_respond_const _ _⟩
  | .rdbuf space index => hasRow_rdbuf space index
  | .wrbuf space index data => hasRow_wrbuf space index data
  | .encode => ⟨_, fun _ => rfl, touchesOnly_encode Config.cfg⟩
  | .decode => ⟨_, fun _ => rfl, touchesOnly_decode Config.cfg⟩
  | .encodebits => hasRow_encodebits
  | .decodebits => hasRow_decodebits
  | .pack => ⟨_, fun _ => rfl, touchesOnly_pack⟩
  | .unpack => ⟨_, fun _ => rfl, touchesOnly_unpack⟩
  | .fft => ⟨_, fun _ => rfl, touchesOnly_transform false⟩
  | .ifft => ⟨_, fun _ => rfl, touchesOnly_transform true⟩
  | .rdparam sel => hasRow_rdparam sel

/-- Settles O57: each command's row, as a change of state that touches only the cells it lists. -/
theorem commandsTouchOnlyListedCells : Obligations.CommandsTouchOnlyListedCells := by
  unfold Obligations.CommandsTouchOnlyListedCells
  constructor
  · intro i s
    obtain ⟨f, runs, row⟩ := hasRow i
    exact ⟨f s, runs s, row.keeps s⟩
  · intro i s s' hp hr
    obtain ⟨f, runs, row⟩ := hasRow i
    exact ⟨f s, f s', runs s, runs s', row.depends s s' hp hr⟩

end Sys2Proof.Machine
end

section
/-! PROOFS. The arithmetic unit (40_alu.md R142 to R146). Every command answers with the narrowing of
one exact integer, so each obligation is what the narrowing answers, with that integer written as the
rule writes it. -/

namespace Sys2Proof.Machine

/-! ### The answer of an exact result -/

/-- `satFlag` in the words of R141. -/
theorem satFlag_eq_decide (x : Int) : satFlag x = decide (x < -32768 ∨ 32767 < x) :=
  (Bool.decide_or _ _).symm

theorem sat16_eq_max_min (x : Int) : sat16 x = max (-32768) (min 32767 x) := by
  unfold sat16
  split_ifs <;> omega

/-- The answer of an exact result: the clamped integer, `SAT` when it was out of range, and no other
part of the state changed (R140, R141). -/
theorem answerExact_eq_clamped (s : State) (x : Int) :
    s.answerExact x = { s with
      response := some
        { st := .ok
          sat := decide (x < -32768 ∨ 32767 < x)
          y := BitVec.ofInt 16 (max (-32768) (min 32767 x)) } } := by
  rw [← satFlag_eq_decide, ← sat16_eq_max_min]
  rfl

/-! ### The command words of format R: class 0, the operation in `funct`, the low byte clear (R113, R114) -/

theorem decode_sadd (a b : Word) : decode ⟨0x0000, a, b⟩ = .ok (.sadd a b) := by
  simp [decode, decodeArith, cwClass, cwLow, cwFunct]

theorem decode_ssub (a b : Word) : decode ⟨0x0100, a, b⟩ = .ok (.ssub a b) := by
  simp [decode, decodeArith, cwClass, cwLow, cwFunct]

theorem decode_smul (a b : Word) : decode ⟨0x0200, a, b⟩ = .ok (.smul a b) := by
  simp [decode, decodeArith, cwClass, cwLow, cwFunct]

theorem decode_sshl (a n : Word) : decode ⟨0x0300, a, n⟩ = .ok (.sshl a n) := by
  simp [decode, decodeArith, cwClass, cwLow, cwFunct]

theorem decode_sshr (a n : Word) : decode ⟨0x0400, a, n⟩ = .ok (.sshr a n) := by
  simp [decode, decodeArith, cwClass, cwLow, cwFunct]

/-! ### The commands: each answers its exact result -/

theorem exec_sadd (a b : Word) (s : State) :
    exec (.sadd a b) s = .next (s.answerExact (s16 a + s16 b)) := rfl

theorem exec_ssub (a b : Word) (s : State) :
    exec (.ssub a b) s = .next (s.answerExact (s16 a - s16 b)) := rfl

theorem exec_smul (a b : Word) (s : State) :
    exec (.smul a b) s = .next (s.answerExact (exactMul a b)) := rfl

theorem exec_sshl (a n : Word) (s : State) :
    exec (.sshl a n) s = .next (s.answerExact (shiftExact (s16 a) (s16 n))) := rfl

theorem exec_sshr (a n : Word) (s : State) :
    exec (.sshr a n) s = .next (s.answerExact (shiftExact (s16 a) (-(s16 n)))) := rfl

/-! ### The right shift and the shift by a signed count -/

/-- The right shift rounds down, also for a negative value (00_scope.md R14). -/
theorem asr_eq_fdiv (v : Int) (n : Nat) : asr v n = Int.fdiv v (2 ^ n) :=
  (Int.fdiv_eq_ediv_of_nonneg v (by positivity)).symm

theorem shiftExact_eq_fdiv (a n : Int) :
    shiftExact a n = if 0 ≤ n then a * 2 ^ n.toNat else Int.fdiv a (2 ^ (-n).toNat) := by
  rw [← asr_eq_fdiv]
  rfl

/-- The shift by the negated count, by the sign of the count itself: a count of 0 is the one where the
two readings meet, and there neither shift moves anything. -/
theorem shiftExact_neg (a n : Int) :
    shiftExact a (-n) = if 0 ≤ n then Int.fdiv a (2 ^ n.toNat) else a * 2 ^ (-n).toNat := by
  rw [shiftExact_eq_fdiv, neg_neg]
  rcases lt_trichotomy n 0 with neg | rfl | pos
  · rw [if_pos (by omega), if_neg (by omega)]
  · simp
  · rw [if_neg (by omega), if_pos (by omega)]

/-! ### The Q15 product -/

theorem abs_s16_le (w : Word) : |s16 w| ≤ 32768 := by
  have := s16_range w
  rw [abs_le]
  omega

theorem abs_s16_le_of_ne {w : Word} (h : s16 w ≠ -32768) : |s16 w| ≤ 32767 := by
  have := s16_range w
  rw [abs_le]
  omega

theorem product_range (a b : Word) : -2 ^ 30 ≤ s16 a * s16 b ∧ s16 a * s16 b ≤ 2 ^ 30 := by
  have bound : |s16 a * s16 b| ≤ 32768 * 32768 := by
    rw [abs_mul]
    gcongr <;> exact abs_s16_le _
  exact abs_le.mp bound

/-- With one operand other than -32768, so of a smaller magnitude, the product stays below `2 ^ 30`. -/
theorem product_lt_of_left_ne {a : Word} (ne : s16 a ≠ -32768) (b : Word) :
    s16 a * s16 b < 2 ^ 30 :=
  calc s16 a * s16 b
      ≤ |s16 a * s16 b| := le_abs_self _
    _ = |s16 a| * |s16 b| := abs_mul _ _
    _ ≤ 32767 * 32768 := by
      gcongr
      · exact abs_s16_le_of_ne ne
      · exact abs_s16_le b
    _ < 2 ^ 30 := by norm_num

theorem product_eq_bound_iff (a b : Word) :
    s16 a * s16 b = 2 ^ 30 ↔ s16 a = -32768 ∧ s16 b = -32768 := by
  constructor
  · intro h
    constructor
    · by_contra ne
      exact (product_lt_of_left_ne ne b).ne h
    · by_contra ne
      exact (product_lt_of_left_ne ne a).ne ((mul_comm _ _).trans h)
  · rintro ⟨ha, hb⟩
    rw [ha, hb]
    rfl

theorem exactMul_eq_fdiv (a b : Word) : exactMul a b = Int.fdiv (s16 a * s16 b) 32768 :=
  asr_eq_fdiv _ 15

theorem exactMul_eq_ediv (a b : Word) : exactMul a b = s16 a * s16 b / 32768 := rfl

theorem exactMul_ge (a b : Word) : -32768 ≤ exactMul a b := by
  have range := product_range a b
  rw [exactMul_eq_ediv]
  omega

/-- The product is out of range for one operand pair only (R144). -/
theorem exactMul_gt_iff (a b : Word) :
    32767 < exactMul a b ↔ s16 a = -32768 ∧ s16 b = -32768 := by
  have range := product_range a b
  rw [← product_eq_bound_iff, exactMul_eq_ediv]
  omega

/-! ### The obligations -/

/-- Settles O16: the product never falls below the range, so the clamp is `min 32767`, and it exceeds
the range for one operand pair only. -/
theorem smulAnswersTheFlooredProduct : Obligations.SmulAnswersTheFlooredProduct := by
  unfold Obligations.SmulAnswersTheFlooredProduct
  intro a b s
  refine ⟨decode_smul a b, ?_⟩
  have lo : -32768 ≤ exactMul a b := exactMul_ge a b
  have sat : (exactMul a b < -32768 ∨ 32767 < exactMul a b) ↔ a.toInt = -32768 ∧ b.toInt = -32768 :=
    (or_iff_right (not_lt.mpr lo)).trans (exactMul_gt_iff a b)
  have clamp : max (-32768) (min 32767 (exactMul a b)) = min 32767 (exactMul a b) :=
    max_eq_right (le_min (by decide) lo)
  rw [exec_smul, answerExact_eq_clamped, decide_eq_decide.mpr sat, clamp, exactMul_eq_fdiv]
  rfl

/-- Settles O14: the exact result of `SADD` is the sum. -/
theorem saddAnswersTheClampedSum : Obligations.SaddAnswersTheClampedSum := by
  unfold Obligations.SaddAnswersTheClampedSum
  intro a b s
  exact ⟨decode_sadd a b, (exec_sadd a b s).trans (congrArg _ (answerExact_eq_clamped s _))⟩

/-- Settles O15: the exact result of `SSUB` is the difference. -/
theorem ssubAnswersTheClampedDifference : Obligations.SsubAnswersTheClampedDifference := by
  unfold Obligations.SsubAnswersTheClampedDifference
  intro a b s
  exact ⟨decode_ssub a b, (exec_ssub a b s).trans (congrArg _ (answerExact_eq_clamped s _))⟩

/-- Settles O17: the exact result of `SSHL` is the floored shift by the whole signed count. -/
theorem sshlAnswersTheClampedShift : Obligations.SshlAnswersTheClampedShift := by
  unfold Obligations.SshlAnswersTheClampedShift
  intro a n s
  refine ⟨decode_sshl a n, ?_⟩
  rw [exec_sshl, shiftExact_eq_fdiv, answerExact_eq_clamped]
  rfl

/-- Settles O18: the exact result of `SSHR` is that of the left shift by the negated count. -/
theorem sshrAnswersTheClampedShift : Obligations.SshrAnswersTheClampedShift := by
  unfold Obligations.SshrAnswersTheClampedShift
  intro a n s
  refine ⟨decode_sshr a n, ?_, rfl⟩
  rw [exec_sshr, shiftExact_neg, answerExact_eq_clamped]
  rfl

end Sys2Proof.Machine
end

section
/-! PROOFS. Buffer access (42_buffer_param_access.md R191, R192): a word of format M is its fields side
by side, so it decodes to the command of those fields; the rest is what a read or a write of one cell
answers. -/

namespace Sys2Proof

/-! ### The command words of format M: class 1, `dir`, `space` and `index` (30_encoding.md R113, R115) -/

/-- The number of a space names that space again (20_memory.md R80). -/
@[simp] theorem Space.ofNum_num (space : Space) : Space.ofNum space.num = space := by
  cases space <;> rfl

/-- Side by side is a sum: the left part at its place, and the right part. -/
theorem toNat_append_eq_add {m n : Nat} (x : BitVec m) (y : BitVec n) :
    (x ++ y).toNat = x.toNat * 2 ^ n + y.toNat := by
  rw [BitVec.toNat_append, ← Nat.shiftLeft_add_eq_or_of_lt y.isLt, Nat.shiftLeft_eq]

section

open BitVec (extractLsb'_append_eq_of_le extractLsb'_append_eq_left extractLsb'_append_eq_right)

variable (dir : BitVec 1) (space : Space) (index : BitVec 8)

@[simp] theorem cwLow_cwAccess : cwLow (cwAccess dir space index) = index :=
  extractLsb'_append_eq_right

@[simp] theorem cwSpace_cwAccess : cwSpace (cwAccess dir space index) = space.num :=
  (extractLsb'_append_eq_of_le (by decide)).trans extractLsb'_append_eq_right

@[simp] theorem cwDir_cwAccess : cwDir (cwAccess dir space index) = dir :=
  (extractLsb'_append_eq_of_le (by decide)).trans <|
    (extractLsb'_append_eq_of_le (by decide)).trans extractLsb'_append_eq_right

@[simp] theorem cwClass_cwAccess : cwClass (cwAccess dir space index) = 1 :=
  (extractLsb'_append_eq_of_le (by decide)).trans <|
    (extractLsb'_append_eq_of_le (by decide)).trans extractLsb'_append_eq_left

/-- The fields of a word of format M, each added at its place. -/
theorem cwAccess_eq_add : cwAccess dir space index =
    0x1000 + 0x800 * dir.setWidth 16 + 256 * space.num.setWidth 16 + index.setWidth 16 := by
  have value : (cwAccess dir space index).toNat =
      ((2 + dir.toNat) * 8 + space.num.toNat) * 256 + index.toNat :=
    (toNat_append_eq_add _ _).trans (by rw [toNat_append_eq_add, toNat_append_eq_add]; rfl)
  apply BitVec.eq_of_toNat_eq
  rw [value]
  bv_omega

/-- A packet of class 1 reads or writes, by `dir`, the cell its fields name, and `B` plays no part
(30_encoding.md R111, R115). -/
theorem decode_cwAccess (a b : Word) :
    decode ⟨cwAccess dir space index, a, b⟩ =
      .ok (if dir = 0 then .rdbuf space index else .wrbuf space index a) := by
  simp [decode, decodeAccess]

end

theorem decode_rdbuf (space : Space) (index : BitVec 8) (a b : Word) :
    decode ⟨0x1000 + 256 * space.num.setWidth 16 + index.setWidth 16, a, b⟩ =
      .ok (.rdbuf space index) := by
  have word := cwAccess_eq_add 0 space index
  exact word ▸ decode_cwAccess 0 space index a b

theorem decode_wrbuf (space : Space) (index : BitVec 8) (data b : Word) :
    decode ⟨0x1800 + 256 * space.num.setWidth 16 + index.setWidth 16, data, b⟩ =
      .ok (.wrbuf space index data) := by
  have word := cwAccess_eq_add 1 space index
  exact word ▸ decode_cwAccess 1 space index data b

end Sys2Proof

namespace Sys2Proof.Machine

/-! ### Cells of bytes and of words -/

/-- A cell of `BS` reads as a byte extended with zeros (R191). -/
theorem readCell_bs_lt (m : Buffers) (i : Nat) : (m.readCell .bs i).toNat < 256 := by
  have byte : ((cellD m.bs i 0).setWidth 16).toNat = (cellD m.bs i 0).toNat :=
    BitVec.toNat_setWidth_of_le (by decide)
  exact byte ▸ (cellD m.bs i 0).isLt

/-- In range, the cell written reads as what its space stores of the word (R192). -/
theorem readCell_writeCell_same (m : Buffers) {space : Space} {i : Nat} (v : Word)
    (inside : i < spaceSize space) : (m.writeCell space i v).readCell space i = storedWord space v :=
  (readCell_writeCell ..).trans (if_pos ⟨rfl, rfl, inside⟩)

/-- Every other cell reads as before (R192). -/
theorem readCell_writeCell_other (m : Buffers) {space sp : Space} {i n : Nat} (v : Word)
    (other : ¬(sp = space ∧ n = i)) : (m.writeCell space i v).readCell sp n = m.readCell sp n :=
  (readCell_writeCell ..).trans (if_neg fun ⟨hsp, hn, _⟩ => other ⟨hsp, hn⟩)

/-- What a cell holds of a word written to it, as a number: the low byte in `BS` (20_memory.md R92). -/
theorem toNat_storedWord (space : Space) (v : Word) :
    (storedWord space v).toNat = if space = .bs then v.toNat % 256 else v.toNat := by
  unfold storedWord
  split_ifs
  · rw [BitVec.toNat_setWidth_of_le (by decide), BitVec.toNat_setWidth]
  · rfl

/-- The host may write every space but `PCMO` (60_exceptions.md R353); an absent space has no cell. -/
theorem hostWritable_iff (space : Space) : hostWritable space = true ↔ space ≠ .pcmo := by
  cases space <;> decide

/-! ### The commands, each by the one equation of its meaning -/

theorem exec_rdbuf (space : Space) (index : BitVec 8) (s : State) :
    exec (.rdbuf space index) s = execRdbuf space index s := rfl

theorem exec_wrbuf (space : Space) (index : BitVec 8) (data : Word) (s : State) :
    exec (.wrbuf space index data) s = execWrbuf space index data s := rfl

/-! ### The obligations -/

/-- Settles O22: the two errors are the branches of `execWrbuf_eq` in its order, and the write is what
a read after it gives at the cell and away from it. -/
theorem wrbufWritesOneCell : Obligations.WrbufWritesOneCell := by
  unfold Obligations.WrbufWritesOneCell
  intro space index data b s
  rw [exec_wrbuf, execWrbuf_eq]
  refine ⟨decode_wrbuf space index data b, fun outside => ?_, fun inside pcmo => ?_,
    fun inside notPcmo => ?_⟩
  · rw [if_neg (Nat.not_lt.mpr outside)]
    rfl
  · rw [if_pos inside, if_neg fun writable => (hostWritable_iff space).mp writable pcmo]
    rfl
  · rw [if_pos inside, if_pos ((hostWritable_iff space).mpr notPcmo)]
    refine ⟨_, rfl, rfl, rfl, rfl, ?_, fun sp n other => readCell_writeCell_other _ _ other⟩
    rw [State.done_bufs, readCell_writeCell_same _ _ inside, toNat_storedWord]

/-- Settles O21: the two branches of `execRdbuf_eq`. -/
theorem rdbufAnswersTheCell : Obligations.RdbufAnswersTheCell := by
  unfold Obligations.RdbufAnswersTheCell
  intro space index a b s
  refine ⟨decode_rdbuf space index a b, ?_, ?_⟩
  · rw [exec_rdbuf, execRdbuf_eq]
    split_ifs <;> rfl
  · rintro rfl
    exact readCell_bs_lt s.bufs index.toNat

end Sys2Proof.Machine
end

section
/-! PROOFS. The bit packer (43_bitpacker.md R210 to R214). The frame vector and the bitstream frame are
the same 88 bits laid out in blocks, the one in eight fields and the other in eleven bytes: `PACK` and
`UNPACK` keep the bits and change the blocks. -/

namespace Sys2Proof.Machine

/-! ### Numbers as bits, most significant first (R211, R213) -/

@[simp] theorem length_bitsMsb (w v : Nat) : (bitsMsb w v).length = w := by
  simp [bitsMsb]

theorem getD_bitsMsb {w b : Nat} (hb : b < w) (v : Nat) :
    (bitsMsb w v).getD (w - 1 - b) false = v.testBit b := by
  have place : w - 1 - (w - 1 - b) = b := by omega
  have inside : w - 1 - b < w := by omega
  simp [bitsMsb, inside, place]

/-- Reading one more bit puts it at the low end (R213: `v = 2 * v + bit`). -/
theorem ofBitsMsb_concat (bs : List Bool) (b : Bool) :
    ofBitsMsb (bs ++ [b]) = Nat.bit b (ofBitsMsb bs) := by
  simp [ofBitsMsb, Nat.bit_val]

theorem testBit_ofBitsMsb (bs : List Bool) (b : Nat) :
    (ofBitsMsb bs).testBit b = bs.reverse.getD b false := by
  induction bs using List.reverseRecOn generalizing b with
  | nil => simp [ofBitsMsb]
  | append_singleton bs x ih =>
    rw [ofBitsMsb_concat, List.reverse_concat]
    cases b with
    | zero => simp
    | succ b => simpa [Nat.testBit_bit_succ] using ih b

theorem ofBitsMsb_lt (bs : List Bool) : ofBitsMsb bs < 2 ^ bs.length := by
  apply Nat.lt_pow_two_of_testBit
  intro b hb
  rw [testBit_ofBitsMsb, List.getD_eq_default _ _ (by simpa using hb)]

/-- Reading back the low `w` bits of a number gives it modulo `2 ^ w`. -/
theorem ofBitsMsb_bitsMsb (w v : Nat) : ofBitsMsb (bitsMsb w v) = v % 2 ^ w := by
  apply Nat.eq_of_testBit_eq
  intro b
  rw [testBit_ofBitsMsb, Nat.testBit_mod_two_pow]
  by_cases hb : b < w
  · rw [← getD_bitsMsb hb, List.getD_eq_getElem?_getD, List.getElem?_reverse (by simpa using hb)]
    simp [hb]
  · simp [hb]

/-- Writing as many bits as were read gives those bits. -/
theorem bitsMsb_ofBitsMsb (bs : List Bool) : bitsMsb bs.length (ofBitsMsb bs) = bs := by
  apply List.ext_getElem (length_bitsMsb _ _)
  intro t _ ht
  have mirror : bs.length - 1 - (bs.length - 1 - t) = t := by omega
  have inside : bs.length - 1 - t < bs.length := by omega
  simp [bitsMsb, testBit_ofBitsMsb, inside, mirror]

/-- The bits above the width play no part (R212). -/
theorem bitsMsb_mod (w v : Nat) : bitsMsb w (v % 2 ^ w) = bitsMsb w v := by
  have h := bitsMsb_ofBitsMsb (bitsMsb w v)
  rwa [length_bitsMsb, ofBitsMsb_bitsMsb] at h

/-! ### Bits laid out in blocks -/

/-- Blocks of the widths `ws` one after another, block `i` holding the low bits of `v i`. -/
def blockBits (ws : List Nat) (v : Nat → Nat) : List Bool :=
  (List.range ws.length).flatMap fun i => bitsMsb (ws.getD i 0) (v i)

/-- Block `i` of a list of bits, cut by the widths `ws`. -/
def bitBlock (ws : List Nat) (l : List Bool) (i : Nat) : List Bool :=
  (l.drop (ws.take i).sum).take (ws.getD i 0)

@[simp] theorem blockBits_nil (v : Nat → Nat) : blockBits [] v = [] := rfl

@[simp] theorem blockBits_cons (w : Nat) (ws : List Nat) (v : Nat → Nat) :
    blockBits (w :: ws) v = bitsMsb w (v 0) ++ blockBits ws fun i => v (i + 1) := by
  simp [blockBits, List.range_succ_eq_map, List.flatMap_map]

@[simp] theorem bitBlock_cons_zero (w : Nat) (ws : List Nat) (l : List Bool) :
    bitBlock (w :: ws) l 0 = l.take w := rfl

@[simp] theorem bitBlock_cons_succ (w : Nat) (ws : List Nat) (l : List Bool) (i : Nat) :
    bitBlock (w :: ws) l (i + 1) = bitBlock ws (l.drop w) i := by
  simp [bitBlock]

@[simp] theorem length_blockBits (ws : List Nat) (v : Nat → Nat) :
    (blockBits ws v).length = ws.sum := by
  induction ws generalizing v with
  | nil => rfl
  | cons w ws ih => simp [ih]

/-- The layout depends only on the bits that the blocks have room for. -/
theorem blockBits_congr {ws : List Nat} {v v' : Nat → Nat}
    (h : ∀ i < ws.length, bitsMsb (ws.getD i 0) (v i) = bitsMsb (ws.getD i 0) (v' i)) :
    blockBits ws v = blockBits ws v' :=
  List.flatMap_congr fun i hi => h i (List.mem_range.mp hi)

/-- A block read as a number is below 2 to its width. -/
theorem ofBitsMsb_bitBlock_lt (ws : List Nat) (l : List Bool) (i : Nat) :
    ofBitsMsb (bitBlock ws l i) < 2 ^ ws.getD i 0 :=
  (ofBitsMsb_lt _).trans_le (Nat.pow_le_pow_right (by decide) (List.length_take_le _ _))

/-- Cutting a layout gives each block back. -/
theorem bitBlock_blockBits {ws : List Nat} {i : Nat} (hi : i < ws.length) (v : Nat → Nat) :
    bitBlock ws (blockBits ws v) i = bitsMsb (ws.getD i 0) (v i) := by
  induction ws generalizing i v with
  | nil => cases hi
  | cons w ws ih =>
    cases i with
    | zero => simp
    | succ i => simpa using ih (Nat.lt_of_succ_lt_succ hi) fun i => v (i + 1)

/-- Laying out the numbers read from the blocks of a list gives the list back. -/
theorem blockBits_bitBlock {ws : List Nat} {l : List Bool} (h : l.length = ws.sum) :
    (blockBits ws fun i => ofBitsMsb (bitBlock ws l i)) = l := by
  induction ws generalizing l with
  | nil => exact (List.eq_nil_of_length_eq_zero h).symm
  | cons w ws ih =>
    rw [List.sum_cons] at h
    have first : (l.take w).length = w := by simp [h]
    have rest : (l.drop w).length = ws.sum := by simp [h]
    calc (blockBits (w :: ws) fun i => ofBitsMsb (bitBlock (w :: ws) l i))
        = bitsMsb w (ofBitsMsb (l.take w)) ++
            blockBits ws fun i => ofBitsMsb (bitBlock ws (l.drop w) i) := by simp
      _ = l.take w ++ l.drop w :=
          congrArg₂ _ (by simpa only [first] using bitsMsb_ofBitsMsb (l.take w)) (ih rest)
      _ = l := List.take_append_drop w l

/-- Bit `b` of block `i` stands at the start of the block plus `w - 1 - b` (R212). -/
theorem getD_blockBits {ws : List Nat} {i b : Nat} (hi : i < ws.length) (hb : b < ws.getD i 0)
    (v : Nat → Nat) :
    (blockBits ws v).getD ((ws.take i).sum + (ws.getD i 0 - 1 - b)) false = (v i).testBit b := by
  have inside : ws.getD i 0 - 1 - b < ws.getD i 0 := by omega
  rw [← getD_bitsMsb hb, ← bitBlock_blockBits hi]
  simp only [bitBlock, List.getD_eq_getElem?_getD, List.getElem?_take, List.getElem?_drop]
  rw [if_pos (by simpa using inside)]

/-! ### The two layouts of a frame: eight fields, eleven bytes -/

theorem getElem_eq_cellD {α : Type} {n : Nat} (v : Vector α n) (i : Fin n) (d : α) :
    v[i] = cellD v i d :=
  (cellD_of_lt v i.isLt d).symm

/-- The widths of the eleven bytes of `BS`. -/
def byteWidths : List Nat := List.replicate 11 8

theorem getD_byteWidths {j : Nat} (hj : j < 11) : byteWidths.getD j 0 = 8 :=
  List.getD_replicate _ hj

theorem sum_take_byteWidths {j : Nat} (hj : j < 11) : (byteWidths.take j).sum = 8 * j := by
  rw [byteWidths, List.take_replicate, List.sum_replicate, Nat.min_eq_left hj.le, smul_eq_mul,
    Nat.mul_comm]

theorem frameBits_eq (fv : Vector Word 8) :
    frameBits fv = blockBits fieldWidths fun f => (cellD fv f 0).toNat :=
  blockBits_congr fun f _ => bitsMsb_mod (fieldWidth f) _

theorem streamBits_eq (bs : Vector Byte 11) :
    streamBits bs = blockBits byteWidths fun j => (cellD bs j 0).toNat := by
  have cells : bs.toList = (List.range 11).map fun j => cellD bs j 0 := by
    apply List.ext_getElem (by simp)
    intro j _ hj
    have inside : j < 11 := by simpa using hj
    simp [cellD_of_lt bs inside]
  rw [streamBits, cells, List.flatMap_map]
  exact List.flatMap_congr fun j hj => by rw [getD_byteWidths (List.mem_range.mp hj)]

@[simp] theorem length_frameBits (fv : Vector Word 8) : (frameBits fv).length = 88 := by
  rw [frameBits_eq, length_blockBits]
  rfl

@[simp] theorem length_streamBits (bs : Vector Byte 11) : (streamBits bs).length = 88 := by
  rw [streamBits_eq, length_blockBits]
  rfl

/-- The place of bit `b` of field `f` among the 88 bits (R212). -/
theorem getD_frameBits (fv : Vector Word 8) (f : Fin 8) {b : Nat} (hb : b < fieldWidth f) :
    (frameBits fv).getD (fieldStart f + (fieldWidth f - 1 - b)) false = fv[f].getLsbD b := by
  rw [frameBits_eq, getElem_eq_cellD fv f 0]
  exact getD_blockBits f.isLt hb _

/-- Bit position `i` is bit `7 - i mod 8` of byte `i div 8` (R211). -/
theorem getD_streamBits (bs : Vector Byte 11) {i : Nat} (hi : i < 88) :
    (streamBits bs).getD i false = (cellD bs (i / 8) 0).getLsbD (7 - i % 8) := by
  have byte : i / 8 < 11 := by omega
  have place : 8 * (i / 8) + (8 - 1 - (7 - i % 8)) = i := by omega
  have bit : 7 - i % 8 < byteWidths.getD (i / 8) 0 := by
    rw [getD_byteWidths byte]
    omega
  have h := getD_blockBits byte bit fun j => (cellD bs j 0).toNat
  rwa [← streamBits_eq, sum_take_byteWidths byte, getD_byteWidths byte, place] at h

theorem fieldPosition_lt (f : Fin 8) {b : Nat} (hb : b < fieldWidth f) :
    fieldStart f + (fieldWidth f - 1 - b) < 88 := by
  have fits : ∀ g : Fin 8, fieldStart g + fieldWidth g ≤ 88 := by decide
  have := fits f
  omega

/-! ### `PACK` and `UNPACK` keep the 88 bits (R212, R213) -/

theorem toNat_packFrame (fv : Vector Word 8) {j : Nat} (hj : j < 11) :
    (cellD (packFrame fv) j 0).toNat = ofBitsMsb (bitBlock byteWidths (frameBits fv) j) := by
  have small := ofBitsMsb_bitBlock_lt byteWidths (frameBits fv) j
  rw [bitBlock, getD_byteWidths hj, sum_take_byteWidths hj] at small ⊢
  rw [packFrame, cellD_ofFn, dif_pos hj, BitVec.toNat_ofNat, Nat.mod_eq_of_lt small]

theorem toNat_unpackFrame (bs : Vector Byte 11) {f : Nat} (hf : f < 8) :
    (cellD (unpackFrame bs) f 0).toNat = ofBitsMsb (bitBlock fieldWidths (streamBits bs) f) := by
  have narrow : ∀ g : Fin 8, fieldWidth g ≤ 16 := by decide
  have small : ofBitsMsb (bitBlock fieldWidths (streamBits bs) f) < 2 ^ 16 :=
    (ofBitsMsb_bitBlock_lt _ _ _).trans_le (Nat.pow_le_pow_right (by decide) (narrow ⟨f, hf⟩))
  rw [unpackFrame, cellD_ofFn, dif_pos hf, BitVec.toNat_ofNat]
  exact Nat.mod_eq_of_lt small

theorem streamBits_packFrame (fv : Vector Word 8) : streamBits (packFrame fv) = frameBits fv :=
  calc streamBits (packFrame fv)
      = blockBits byteWidths fun j => (cellD (packFrame fv) j 0).toNat := streamBits_eq _
    _ = blockBits byteWidths fun j => ofBitsMsb (bitBlock byteWidths (frameBits fv) j) :=
        blockBits_congr fun _ hj => congrArg _ (toNat_packFrame fv hj)
    _ = frameBits fv := blockBits_bitBlock (length_frameBits fv)

theorem frameBits_unpackFrame (bs : Vector Byte 11) : frameBits (unpackFrame bs) = streamBits bs :=
  calc frameBits (unpackFrame bs)
      = blockBits fieldWidths fun f => (cellD (unpackFrame bs) f 0).toNat := frameBits_eq _
    _ = blockBits fieldWidths fun f => ofBitsMsb (bitBlock fieldWidths (streamBits bs) f) :=
        blockBits_congr fun _ hf => congrArg _ (toNat_unpackFrame bs hf)
    _ = streamBits bs := blockBits_bitBlock (length_streamBits bs)

/-! ### There and back (R214) -/

theorem toNat_unpackFrame_packFrame (fv : Vector Word 8) (f : Fin 8) :
    (unpackFrame (packFrame fv))[f].toNat = fv[f].toNat % 2 ^ fieldWidth f := by
  rw [getElem_eq_cellD _ f 0, getElem_eq_cellD fv f 0, toNat_unpackFrame _ f.isLt,
    streamBits_packFrame, frameBits_eq, bitBlock_blockBits f.isLt, ofBitsMsb_bitsMsb]
  rfl

theorem packFrame_unpackFrame (bs : Vector Byte 11) : packFrame (unpackFrame bs) = bs := by
  apply vector_ext_cellD 0
  intro j
  by_cases hj : j < 11
  · apply BitVec.eq_of_toNat_eq
    rw [toNat_packFrame _ hj, frameBits_unpackFrame, streamBits_eq, bitBlock_blockBits hj,
      ofBitsMsb_bitsMsb, getD_byteWidths hj]
    exact Nat.mod_eq_of_lt (cellD bs j 0).isLt
  · rw [cellD_of_ge _ (Nat.le_of_not_lt hj), cellD_of_ge _ (Nat.le_of_not_lt hj)]

/-! ### Valid frame vectors (20_memory.md R82) -/

theorem validFV_iff (fv : Vector Word 8) :
    validFV fv = true ↔ ∀ f : Fin 8, fv[f].toNat < 2 ^ fieldWidth f := by
  have pairs : fv.toList.zip fieldWidths = List.ofFn fun f : Fin 8 => (fv[f], fieldWidth f) := by
    apply List.ext_getElem (by simp [fieldWidths])
    intro f hf _
    have width : fieldWidth f = fieldWidths[f] :=
      List.getD_eq_getElem _ _ (List.lt_length_right_of_zip hf)
    rw [List.getElem_zip, List.getElem_ofFn, width]
    rfl
  rw [validFV, pairs, List.all_eq_true, List.forall_mem_ofFn_iff]
  exact forall_congr' fun f => decide_eq_true_iff

theorem validFV_unpackFrame (bs : Vector Byte 11) : validFV (unpackFrame bs) = true := by
  rw [validFV_iff]
  intro f
  rw [getElem_eq_cellD _ f 0, toNat_unpackFrame bs f.isLt]
  exact ofBitsMsb_bitBlock_lt _ _ _

/-- A valid frame vector has no bits that `PACK` would drop. -/
theorem unpackFrame_packFrame {fv : Vector Word 8} (valid : validFV fv = true) :
    unpackFrame (packFrame fv) = fv := by
  apply Vector.ext
  intro f hf
  apply BitVec.eq_of_toNat_eq
  exact (toNat_unpackFrame_packFrame fv ⟨f, hf⟩).trans
    (Nat.mod_eq_of_lt ((validFV_iff fv).mp valid ⟨f, hf⟩))

/-! ### The commands -/

theorem decode_pack (a b : Word) : decode ⟨0x2400, a, b⟩ = .ok .pack := by
  simp [decode, Sys2Proof.decodeFrame, cwClass, cwLow, cwFunct]

theorem decode_unpack (a b : Word) : decode ⟨0x2500, a, b⟩ = .ok .unpack := by
  simp [decode, Sys2Proof.decodeFrame, cwClass, cwLow, cwFunct]

theorem exec_pack (s : State) :
    exec .pack s = .next (State.done { s with bufs := s.bufs.packed }) := rfl

theorem exec_unpack (s : State) :
    exec .unpack s = .next (State.done { s with bufs := s.bufs.unpacked }) := rfl

/-! ### The obligations -/

/-- Settles O24: the bits of the bytes written are the bits of the fields, and a position among the 88
is one bit of a field and one bit of a byte. -/
theorem packPlacesEveryBit : Obligations.PackPlacesEveryBit := by
  unfold Obligations.PackPlacesEveryBit
  intro opA opB s
  refine ⟨decode_pack opA opB, _, exec_pack s, rfl, rfl, rfl, fun sp n other => ?_, fun f b hb => ?_⟩
  · exact touchesOnly_pack.keeps s sp n (beq_false_of_ne other)
  · intro i
    calc (cellD (packFrame s.bufs.fv) (i / 8) 0).getLsbD (7 - i % 8)
        = (streamBits (packFrame s.bufs.fv)).getD i false :=
          (getD_streamBits _ (fieldPosition_lt f hb)).symm
      _ = (frameBits s.bufs.fv).getD i false := by rw [streamBits_packFrame]
      _ = s.bufs.fv[f].getLsbD b := getD_frameBits _ f hb

/-- Settles O25: the same correspondence of positions, read from the bytes to the fields. -/
theorem unpackReadsEveryBit : Obligations.UnpackReadsEveryBit := by
  unfold Obligations.UnpackReadsEveryBit
  intro opA opB s
  refine ⟨decode_unpack opA opB, _, exec_unpack s, rfl, rfl, rfl, fun sp n other => ?_,
    validFV_unpackFrame s.bufs.bs, fun f b hb => ?_⟩
  · exact touchesOnly_unpack.keeps s sp n (beq_false_of_ne other)
  · intro i
    calc (unpackFrame s.bufs.bs)[f].getLsbD b
        = (frameBits (unpackFrame s.bufs.bs)).getD i false := (getD_frameBits _ f hb).symm
      _ = (streamBits s.bufs.bs).getD i false := by rw [frameBits_unpackFrame]
      _ = (cellD s.bufs.bs (i / 8) 0).getLsbD (7 - i % 8) :=
          getD_streamBits _ (fieldPosition_lt f hb)

/-- Settles O26: `PACK` keeps the 88 bits and `UNPACK` keeps them again, and the other way round. -/
theorem packerIsLossless : Obligations.PackerIsLossless := by
  unfold Obligations.PackerIsLossless
  refine ⟨fun s => ⟨_, _, exec_pack s, exec_unpack _, ?_, ?_⟩,
    fun s => ⟨_, _, exec_unpack s, exec_pack _, ?_⟩⟩
  · exact toNat_unpackFrame_packFrame s.bufs.fv
  · exact unpackFrame_packFrame
  · exact packFrame_unpackFrame s.bufs.bs

end Sys2Proof.Machine
end

section
/-! PROOFS. The frequency table (44_pitch.md R226). The divisor is a pitch period in half samples,
doubled plus one, which the pitch range of R10 keeps between 5 and 65535. -/

namespace Sys2Proof

/-! ### The pitch range of a well-formed `Cfg` (00_scope.md R10) -/

theorem Cfg.pitchRange_of_wf {c : Cfg} (wf : c.wf = true) :
    2 ≤ c.p2Min ∧ c.p2Min ≤ c.p2Max ∧ c.p2Max ≤ 32767 ∧ c.p2Max - c.p2Min ≤ 4095 := by
  have range : c.pitchRangeOk = true := by
    simp only [Cfg.wf, Bool.and_assoc] at wf
    exact (Bool.and_eq_true_iff.mp wf).1
  simpa only [Cfg.pitchRangeOk, Bool.and_eq_true, decide_eq_true_eq, and_assoc] using range

/-- The period of a pitch index is a pitch period in range. -/
theorem Cfg.period_le_of_wf {c : Cfg} (wf : c.wf = true) {b : Nat} (hb : b ≤ c.b0Max) :
    b + c.p2Min ≤ 32767 := by
  obtain ⟨-, min_le_max, max_le, -⟩ := Cfg.pitchRange_of_wf wf
  calc b + c.p2Min ≤ (c.p2Max - c.p2Min) + c.p2Min := Nat.add_le_add_right hb _
    _ = c.p2Max := Nat.sub_add_cancel min_le_max
    _ ≤ 32767 := max_le

namespace Machine

/-! ### Bounds and monotonicity of the table -/

variable {p2Min b : Nat}

theorem le_w0Tab_iff {n : Nat} : n ≤ w0Tab p2Min b ↔ n * (2 * (b + p2Min) + 1) ≤ 2 ^ 34 :=
  Nat.le_div_iff_mul_le (Nat.succ_pos _)

theorem two_pow_17_le_w0Tab (period : b + p2Min ≤ 32767) : 2 ^ 17 ≤ w0Tab p2Min b := by
  rw [le_w0Tab_iff]
  omega

theorem w0Tab_lt_two_pow_32 (hmin : 2 ≤ p2Min) : w0Tab p2Min b < 2 ^ 32 := by
  rw [← Nat.not_le, le_w0Tab_iff]
  omega

/-- From one index to the next the divisor `d` grows by 2. The quotient `q` by `d + 2` is at least
2^17, so `d ≤ 2 q`, and then `(q + 1) d` still fits where `q (d + 2)` does. -/
theorem w0Tab_succ_lt (period : b + 1 + p2Min ≤ 32767) : w0Tab p2Min (b + 1) < w0Tab p2Min b := by
  have large : 2 ^ 17 ≤ w0Tab p2Min (b + 1) := two_pow_17_le_w0Tab period
  have fits : w0Tab p2Min (b + 1) * (2 * (b + 1 + p2Min) + 1) ≤ 2 ^ 34 := le_w0Tab_iff.mp le_rfl
  refine Nat.succ_le_iff.mp (le_w0Tab_iff.mpr ?_)
  generalize w0Tab p2Min (b + 1) = q at large fits
  calc (q + 1) * (2 * (b + p2Min) + 1)
      = q * (2 * (b + p2Min) + 1) + (2 * (b + p2Min) + 1) := Nat.succ_mul _ _
    _ ≤ q * (2 * (b + p2Min) + 1) + q * 2 := by omega
    _ = q * (2 * (b + 1 + p2Min) + 1) := by ring
    _ ≤ 2 ^ 34 := fits

/-! ### The obligation -/

/-- Settles O31: the range of the divisor bounds the quotient on both sides, and the lower bound
makes every step of the table a strict descent. -/
theorem frequencyTableIsDecreasing : Obligations.FrequencyTableIsDecreasing := by
  unfold Obligations.FrequencyTableIsDecreasing
  intro c wf
  refine ⟨fun b hb => ⟨rfl, ?_, ?_⟩, fun b hb => ?_⟩
  · exact two_pow_17_le_w0Tab (Cfg.period_le_of_wf wf hb)
  · exact w0Tab_lt_two_pow_32 (Cfg.pitchRange_of_wf wf).1
  · exact w0Tab_succ_lt (Cfg.period_le_of_wf wf hb)

end Machine
end Sys2Proof
end

section
/-! PROOFS. The search for the nearest table entry (46_amplitude.md R268). One more entry extends the
search by one step, and a step keeps the best so far the first of the least distances. -/

namespace Sys2Proof.Machine

/-! ### The first index of a least value -/

/-- `i` is the smallest index below `n` at which `f` is least. -/
structure IsFirstLeast (f : Nat → Nat) (n i : Nat) : Prop where
  lt : i < n
  le : ∀ j < n, f i ≤ f j
  first : ∀ j < i, f i < f j

namespace IsFirstLeast

variable {f : Nat → Nat} {n i : Nat}

theorem one (f : Nat → Nat) : IsFirstLeast f 1 0 where
  lt := Nat.zero_lt_one
  le j hj := by rw [Nat.lt_one_iff.mp hj]
  first j hj := absurd hj j.not_lt_zero

/-- A strictly smaller value at the next index takes over. -/
theorem succ_of_lt (best : IsFirstLeast f n i) (smaller : f n < f i) : IsFirstLeast f (n + 1) n where
  lt := n.lt_succ_self
  le := Nat.forall_lt_succ_right.mpr ⟨fun j hj => smaller.le.trans (best.le j hj), le_rfl⟩
  first j hj := smaller.trans_le (best.le j hj)

/-- An equal or greater value at the next index leaves the earlier one. -/
theorem succ_of_le (best : IsFirstLeast f n i) (notSmaller : f i ≤ f n) :
    IsFirstLeast f (n + 1) i where
  lt := Nat.lt_succ_of_lt best.lt
  le := Nat.forall_lt_succ_right.mpr ⟨best.le, notSmaller⟩
  first := best.first

end IsFirstLeast

/-! ### The search over the first `n` entries -/

variable {tab : List Word} {n : Nat} {t : Int}

/-- `abs(tab[i] - t)` (R268). -/
def entryDist (tab : List Word) (t : Int) (i : Nat) : Nat := (s16 (tab.getD i 0) - t).natAbs

theorem entryDist_eq_abs (tab : List Word) (t : Int) (i : Nat) :
    (entryDist tab t i : Int) = |(tab.getD i 0).toInt - t| := Int.natCast_natAbs _

/-- The best entry among the first `n`, as (index, distance): the fold inside `nearest`. -/
def nearestAmong (tab : List Word) (n : Nat) (t : Int) : Option (Nat × Nat) :=
  (tab.take n).zipIdx.foldl (nearestStep t) none

theorem nearest_of_nearestAmong {best : Nat × Nat} (found : nearestAmong tab n t = some best) :
    nearest tab n t = best.1 := by
  rw [nearestAmong] at found
  rw [nearest, found]

theorem nearestAmong_zero : nearestAmong tab 0 t = none := rfl

theorem nearestAmong_succ (hn : n < tab.length) :
    nearestAmong tab (n + 1) t = nearestStep t (nearestAmong tab n t) (tab.getD n 0, n) := by
  have entries : (tab.take (n + 1)).zipIdx = (tab.take n).zipIdx ++ [(tab.getD n 0, n)] := by
    rw [List.take_succ_eq_append_getElem hn, List.zipIdx_append, List.zipIdx_singleton, Nat.zero_add,
      List.length_take_of_le hn.le, List.getD_eq_getElem _ _ hn]
  rw [nearestAmong, entries, List.foldl_concat, nearestAmong]

theorem nearestStep_none (i : Nat) :
    nearestStep t none (tab.getD i 0, i) = some (i, entryDist tab t i) := rfl

theorem nearestStep_some (best : Nat × Nat) (i : Nat) :
    nearestStep t (some best) (tab.getD i 0, i) =
      if entryDist tab t i < best.2 then some (i, entryDist tab t i) else some best := rfl

/-- A search over at least one entry keeps the first of the least distances. -/
theorem nearestAmong_isFirstLeast (pos : 1 ≤ n) (len : n ≤ tab.length) :
    ∃ i, nearestAmong tab n t = some (i, entryDist tab t i) ∧
      IsFirstLeast (entryDist tab t) n i := by
  induction n, pos using Nat.le_induction with
  | base =>
    refine ⟨0, ?_, IsFirstLeast.one _⟩
    rw [nearestAmong_succ len, nearestAmong_zero, nearestStep_none]
  | succ n pos ih =>
    obtain ⟨i, found, best⟩ := ih (Nat.le_of_succ_le len)
    have step := nearestAmong_succ (t := t) len
    rw [found, nearestStep_some] at step
    by_cases nearer : entryDist tab t n < entryDist tab t i
    · exact ⟨n, step.trans (if_pos nearer), best.succ_of_lt nearer⟩
    · exact ⟨i, step.trans (if_neg nearer), best.succ_of_le (Nat.not_lt.mp nearer)⟩

theorem nearest_isFirstLeast (pos : 1 ≤ n) (len : n ≤ tab.length) :
    IsFirstLeast (entryDist tab t) n (nearest tab n t) := by
  obtain ⟨i, found, best⟩ := nearestAmong_isFirstLeast (t := t) pos len
  rwa [nearest_of_nearestAmong found]

/-! ### The obligation -/

/-- Settles O39, by the invariant of the search, with the distances read as integers. -/
theorem nearestIsTheFirstNearest : Obligations.NearestIsTheFirstNearest := by
  unfold Obligations.NearestIsTheFirstNearest
  intro tab n t pos len
  simp only [← entryDist_eq_abs, Nat.cast_le, Nat.cast_lt]
  obtain ⟨lt, le, first⟩ := nearest_isFirstLeast (t := t) pos len
  exact ⟨lt, le, first⟩

end Sys2Proof.Machine
end

section
/-! PROOFS. The spectral gain of a bin (48_unvoiced_synth.md R313). The harmonic intervals lie in order
(44_pitch.md R230), so a bin has at most one owner, and the search over the first `n` harmonics answers
for that owner, or 0 while it has met none. -/

namespace Sys2Proof.Machine

/-! ### Owners of a bin -/

theorem ceilShift_le_ceilShift {v v' : Nat} (h : v ≤ v') (n : Nat) : ceilShift v n ≤ ceilShift v' n :=
  Nat.div_le_div_right (Nat.sub_le_sub_right (Nat.add_le_add_right h _) 1)

/-- Harmonic `l` owns bin `m` (R230). -/
def OwnsBin (w0 l m : Nat) : Prop := binLo l w0 ≤ m ∧ m < binHi l w0

variable {w0 l l' m : Nat}

theorem binHi_le_cap (l w0 : Nat) : binHi l w0 ≤ 128 := Nat.min_le_left _ _

theorem not_ownsBin_cap (w0 l : Nat) : ¬OwnsBin w0 l 128 := fun owns =>
  (binHi_le_cap l w0).not_gt owns.2

/-- The interval of a harmonic ends before that of a higher one begins. -/
theorem binHi_le_binLo_of_lt (w0 : Nat) (h : l < l') : binHi l w0 ≤ binLo l' w0 := by
  have factors : 2 * l + 1 ≤ 2 * l' - 1 := by omega
  exact (Nat.min_le_right _ _).trans (ceilShift_le_ceilShift (Nat.mul_le_mul_right w0 factors) 25)

theorem OwnsBin.not_of_lt (owns : OwnsBin w0 l m) (h : l < l') : ¬OwnsBin w0 l' m := fun owns' =>
  (owns.2.trans_le ((binHi_le_binLo_of_lt w0 h).trans owns'.1)).false

/-! ### The search over the first `n` harmonics -/

variable {p : Psrf} {n : Nat}

/-- The gain harmonic `l` gives the bins it owns: its amplitude if its band is unvoiced, else 0. -/
def ownerGain (p : Psrf) (l : Nat) : Int :=
  if voiced p.v (band l p.k.toNat) then 0 else s16 (harmD p.m l 0)

/-- The gain of bin `m` with the harmonics `1..n` only: the fold inside `spectralGain`. -/
def gainAmong (p : Psrf) (m n : Nat) : Int :=
  (List.range' 1 n).foldl
    (fun g l =>
      if !voiced p.v (band l p.k.toNat) && decide (binLo l p.w0.toNat ≤ m) &&
          decide (m < binHi l p.w0.toNat)
      then s16 (harmD p.m l 0) else g) 0

theorem spectralGain_eq_gainAmong (p : Psrf) (m : Nat) :
    spectralGain p m = gainAmong p m p.l.toNat := rfl

theorem gainAmong_zero (p : Psrf) (m : Nat) : gainAmong p m 0 = 0 := rfl

theorem gainAmong_succ (p : Psrf) (m n : Nat) :
    gainAmong p m (n + 1) =
      if !voiced p.v (band (n + 1) p.k.toNat) && decide (binLo (n + 1) p.w0.toNat ≤ m) &&
          decide (m < binHi (n + 1) p.w0.toNat)
      then s16 (harmD p.m (n + 1) 0) else gainAmong p m n := by
  simp only [gainAmong, List.range'_1_concat, List.foldl_concat, Nat.add_comm 1 n]

theorem gainAmong_succ_of_not_ownsBin (other : ¬OwnsBin p.w0.toNat (n + 1) m) :
    gainAmong p m (n + 1) = gainAmong p m n := by
  rw [gainAmong_succ, if_neg]
  simpa [OwnsBin, and_assoc] using fun _ => other

/-- The harmonics `1..n` leave a bin that none of them owns at 0. -/
theorem gainAmong_of_unowned (unowned : ∀ l, 1 ≤ l → l ≤ n → ¬OwnsBin p.w0.toNat l m) :
    gainAmong p m n = 0 := by
  induction n with
  | zero => exact gainAmong_zero p m
  | succ n ih =>
    rw [gainAmong_succ_of_not_ownsBin (unowned (n + 1) (by omega) le_rfl)]
    exact ih fun l pos le => unowned l pos (by omega)

/-- The owner's own step: no lower harmonic has given the bin a gain, so a voiced owner leaves 0. -/
theorem gainAmong_succ_of_ownsBin (owns : OwnsBin p.w0.toNat (n + 1) m) :
    gainAmong p m (n + 1) = ownerGain p (n + 1) := by
  have before : gainAmong p m n = 0 :=
    gainAmong_of_unowned fun l _ le owns' => owns'.not_of_lt (Nat.lt_succ_of_le le) owns
  obtain ⟨lo, hi⟩ := owns
  rw [gainAmong_succ, before, ownerGain]
  cases voiced p.v (band (n + 1) p.k.toNat) with
  | true => rfl
  | false => simp [lo, hi]

/-- Once the search has passed a bin's owner, the bin has the owner's gain. -/
theorem gainAmong_of_ownsBin (pos : 1 ≤ l) (le : l ≤ n) (owns : OwnsBin p.w0.toNat l m) :
    gainAmong p m n = ownerGain p l := by
  induction n, le using Nat.le_induction with
  | base =>
    obtain ⟨k, rfl⟩ := Nat.exists_eq_add_of_le' pos
    exact gainAmong_succ_of_ownsBin owns
  | succ n le ih =>
    rw [gainAmong_succ_of_not_ownsBin (owns.not_of_lt (Nat.lt_succ_of_le le)), ih]

/-! ### The obligation -/

/-- Settles O46, by the search over all `L` harmonics; bin 128 lies past every interval's cap. -/
theorem spectralGainIsTheOwnersAmplitude : Obligations.SpectralGainIsTheOwnersAmplitude := by
  unfold Obligations.SpectralGainIsTheOwnersAmplitude
  intro p _
  simp only [spectralGain_eq_gainAmong]
  refine ⟨fun l m pos le lo hi => ?_, fun m unowned => ?_, ?_⟩
  · exact gainAmong_of_ownsBin pos le ⟨lo, hi⟩
  · exact gainAmong_of_unowned unowned
  · exact gainAmong_of_unowned fun l _ _ => not_ownsBin_cap _ l

end Sys2Proof.Machine
end

section
/-! PROOFS. The synchronous exceptions (60_exceptions.md R350 to R355). What a packet decodes to has one
status, which the operands fix, and it is answered in one of two ways: the command is performed with
`OK`, or the status is raised on the state as it stood, which is R351. R354 is the same status read off
the bits of the command word, class by class. -/

namespace Sys2Proof

/-! ### The fields of a command word as numbers (30_encoding.md R113) -/

theorem toNat_cwClass (w : Word) : (cwClass w).toNat = w.toNat / 4096 := by
  simp only [cwClass, BitVec.extractLsb'_toNat, Nat.shiftRight_eq_div_pow]
  omega

theorem toNat_cwFunct (w : Word) : (cwFunct w).toNat = w.toNat / 256 % 16 := by
  simp only [cwFunct, BitVec.extractLsb'_toNat, Nat.shiftRight_eq_div_pow, Nat.reducePow]

theorem toNat_cwDir (w : Word) : (cwDir w).toNat = w.toNat / 2048 % 2 := by
  simp only [cwDir, BitVec.extractLsb'_toNat, Nat.shiftRight_eq_div_pow, Nat.reducePow]

theorem toNat_cwSpace (w : Word) : (cwSpace w).toNat = w.toNat / 256 % 8 := by
  simp only [cwSpace, BitVec.extractLsb'_toNat, Nat.shiftRight_eq_div_pow, Nat.reducePow]

theorem toNat_cwLow (w : Word) : (cwLow w).toNat = w.toNat % 256 := by
  simp only [cwLow, BitVec.extractLsb'_toNat, Nat.shiftRight_zero, Nat.reducePow]

theorem cwLow_eq_zero_iff (w : Word) : cwLow w = 0 ↔ w.toNat % 256 = 0 := by
  rw [← toNat_cwLow]
  exact BitVec.toNat_inj.symm

theorem cwFunct_eq_zero_iff (w : Word) : cwFunct w = 0 ↔ w.toNat / 256 % 16 = 0 := by
  rw [← toNat_cwFunct]
  exact BitVec.toNat_inj.symm

theorem cwDir_eq_zero_iff (w : Word) : cwDir w = 0 ↔ w.toNat / 2048 % 2 = 0 := by
  rw [← toNat_cwDir]
  exact BitVec.toNat_inj.symm

/-! ### The legal words, field by field (30_encoding.md R119, R120) -/

/-- A row whose mask has the bits from `n` up selects the words that agree with it in those bits. -/
theorem selects_iff_of_mask {r : OpcodeRow} {n : Nat} (mask : r.mask = BitVec.allOnes 16 <<< n)
    (w : Word) : r.selects w = true ↔ w.toNat / 2 ^ n * 2 ^ n = r.pat.toNat := by
  have below : w.toNat / 2 ^ n * 2 ^ n < 2 ^ 16 := (Nat.div_mul_le_self ..).trans_lt w.isLt
  rw [OpcodeRow.selects, beq_iff_eq, mask, ← BitVec.shiftLeft_ushiftRight, ← BitVec.toNat_inj,
    BitVec.toNat_shiftLeft, BitVec.toNat_ushiftRight, Nat.shiftRight_eq_div_pow, Nat.shiftLeft_eq,
    Nat.mod_eq_of_lt below]

/-- The legal words, class by class. -/
theorem legalCW_iff (w : Word) : legalCW w = true ↔
    (w.toNat / 4096 = 0 ∧ w.toNat % 256 = 0 ∧ w.toNat / 256 % 16 < 5) ∨
    w.toNat / 4096 = 1 ∨
    (w.toNat / 4096 = 2 ∧ w.toNat % 256 = 0 ∧ w.toNat / 256 % 16 < 8) ∨
    (w.toNat / 4096 = 3 ∧ w.toNat / 256 % 16 = 0) := by
  have wordRow (name : String) (pat : Word) :
      OpcodeRow.selects ⟨name, pat, 0xFFFF⟩ w = true ↔ w.toNat / 2 ^ 0 * 2 ^ 0 = pat.toNat :=
    selects_iff_of_mask rfl w
  have accessRow (name : String) (pat : Word) :
      OpcodeRow.selects ⟨name, pat, 0xF800⟩ w = true ↔ w.toNat / 2 ^ 11 * 2 ^ 11 = pat.toNat :=
    selects_iff_of_mask rfl w
  have paramRow (name : String) (pat : Word) :
      OpcodeRow.selects ⟨name, pat, 0xFF00⟩ w = true ↔ w.toNat / 2 ^ 8 * 2 ^ 8 = pat.toNat :=
    selects_iff_of_mask rfl w
  simp only [legalCW, opcodeMap, List.cons_append, List.nil_append, List.any_cons, List.any_nil,
    Bool.or_eq_true, wordRow, accessRow, paramRow, BitVec.reduceToNat,
    Nat.reducePow, Bool.false_eq_true, or_false]
  omega

end Sys2Proof

namespace Sys2Proof.Machine

/-! ### The status of a command and of a decoded packet -/

/-- The status that a command's operands fix (60_exceptions.md R352, R353, R355). -/
def commandStatus : Instr → Status
  | .rdbuf space index => readStatus space index
  | .wrbuf space index _ => writeStatus space index
  | .rdparam sel => if 5 ≤ sel.toNat then .badAddress else .ok
  | _ => .ok

/-- The status of what the decoder makes of a packet. -/
def decodedStatus : Except Illegal Instr → Status
  | .ok i => commandStatus i
  | .error _ => .illegal

/-! ### The two ways a packet is answered -/

/-- The outcome answers with the status `st`: the command was performed and `st` is `OK`, or `st` was
raised on the state `s`. `exec_answers` and `step_answers` tie it to the model. -/
inductive Answers (s : State) : Status → Host.Outcome State Fault Refusal → Prop
  /-- the command was performed -/
  | performed {t : State} {sat : Bool} {y : Word} (response : t.response = some ⟨.ok, sat, y⟩) :
      Answers s .ok (.next t)
  /-- an exception was taken -/
  | raised {st : Status} : Answers s st (.next (s.raise st))

/-- An outcome that answers with a status is a next state whose response has that status. -/
theorem Answers.response {s : State} {st : Status} {o : Host.Outcome State Fault Refusal}
    (h : Answers s st o) : ∃ t sat y, o = .next t ∧ t.response = some ⟨st, sat, y⟩ := by
  cases h with
  | performed response => exact ⟨_, _, _, rfl, response⟩
  | raised => exact ⟨_, _, _, rfl, State.raise_response s st⟩

/-- A response with an error stands in the state the exception was taken in, and nothing else of that
state has changed. -/
theorem Answers.eq_raise {s t : State} {st : Status} {r : Response} (h : Answers s st (.next t))
    (response : t.response = some r) (error : r.st ≠ .ok) : t = s.raise r.st := by
  cases h with
  | performed ok =>
    obtain rfl : _ = r := Option.some.inj (ok.symm.trans response)
    exact absurd rfl error
  | raised =>
    obtain rfl : _ = r := Option.some.inj ((State.raise_response s st).symm.trans response)
    rfl

theorem execRdbuf_answers (space : Space) (index : BitVec 8) (s : State) :
    Answers s (readStatus space index) (execRdbuf space index s) := by
  unfold execRdbuf
  cases readStatus space index with
  | ok => exact .performed (State.answer_response ..)
  | illegal | badAddress | access => exact .raised

theorem execWrbuf_answers (space : Space) (index : BitVec 8) (data : Word) (s : State) :
    Answers s (writeStatus space index) (execWrbuf space index data s) := by
  unfold execWrbuf
  cases writeStatus space index with
  | ok => exact .performed (State.done_response _)
  | illegal | badAddress | access => exact .raised

/-- The parameter view has five words (42_buffer_param_access.md R194). -/
theorem isSome_viewWord (p : Psrf) (sel : BitVec 8) :
    (p.viewWord sel).isSome = decide (sel.toNat < 5) := by
  unfold Psrf.viewWord
  generalize sel.toNat = n
  match n with
  | 0 | 1 | 2 | 3 | 4 => rfl
  | n + 5 => simp

theorem execRdparam_answers (sel : BitVec 8) (s : State) :
    Answers s (if 5 ≤ sel.toNat then .badAddress else .ok) (execRdparam sel s) := by
  have view := isSome_viewWord s.psrf sel
  unfold execRdparam
  cases word : s.psrf.viewWord sel with
  | some y =>
    have named : ¬5 ≤ sel.toNat := by simpa [word] using view
    rw [if_neg named]
    exact .performed (State.answer_response ..)
  | none =>
    have unnamed : 5 ≤ sel.toNat := by simpa [word] using view
    rw [if_pos unnamed]
    exact .raised

/-- Every command answers with the status its operands fix. -/
theorem exec_answers (i : Instr) (s : State) : Answers s (commandStatus i) (exec i s) :=
  match i with
  | .sadd _ _ | .ssub _ _ | .smul _ _ | .sshl _ _ | .sshr _ _ =>
    .performed (State.answerExact_response ..)
  | .rdbuf space index => execRdbuf_answers space index s
  | .wrbuf space index data => execWrbuf_answers space index data s
  | .encode | .decode | .encodebits | .decodebits | .pack | .unpack | .fft | .ifft =>
    .performed (State.done_response _)
  | .rdparam sel => execRdparam_answers sel s

/-- A step answers a packet with the status of what it decodes to, on the state with the packet taken. -/
theorem step_answers {s : State} {p : Packet} {rest : List HostMove}
    (waiting : s.inbox = .packet p :: rest) :
    Answers { s with inbox := rest } (decodedStatus (decode p)) (step s) := by
  unfold step
  simp only [waiting]
  cases decode p with
  | ok i => exact exec_answers i _
  | error e => exact .raised

/-- Settles O10: the two ways a packet is answered, of which only the second has an error. -/
theorem errorResponseChangesNothing : Obligations.ErrorResponseChangesNothing := by
  unfold Obligations.ErrorResponseChangesNothing
  intro s t p rest r waiting stepped response error
  exact (stepped ▸ step_answers waiting).eq_raise response error

/-! ### The status of each format, from the fields of the word -/

/-- The sizes of the spaces 0 to 5 (20_memory.md R80); the spaces 6 and 7 have no cell. -/
theorem spaceSize_ofNum (n : BitVec 3) :
    spaceSize (Space.ofNum n) = [160, 160, 8, 11, 256, 256].getD n.toNat 0 := by
  revert n
  decide

/-- Space 1 is the one the host may not write (60_exceptions.md R353). -/
theorem hostWritable_ofNum (n : BitVec 3) : hostWritable (Space.ofNum n) = !decide (n.toNat = 1) := by
  revert n
  decide

/-- A check the decoder makes first decides alone when it fails. -/
theorem decodedStatus_ite_error (c : Prop) [Decidable c] (e : Illegal) (x : Except Illegal Instr) :
    decodedStatus (if c then .error e else x) = if c then .illegal else decodedStatus x :=
  apply_ite decodedStatus c (.error e) x

theorem decodedStatus_decodeArith (p : Packet) : decodedStatus (decodeArith p) =
    if p.cw.toNat % 256 ≠ 0 then .illegal
    else if p.cw.toNat / 256 % 16 < 5 then .ok else .illegal := by
  simp only [decodeArith, decodedStatus_ite_error, ne_eq, cwLow_eq_zero_iff, toNat_cwFunct]
  generalize p.cw.toNat / 256 % 16 = funct
  match funct with
  | 0 | 1 | 2 | 3 | 4 => rfl
  | n + 5 => simp [decodedStatus]

theorem decodedStatus_decodeFrame (p : Packet) : decodedStatus (Sys2Proof.decodeFrame p) =
    if p.cw.toNat % 256 ≠ 0 then .illegal
    else if p.cw.toNat / 256 % 16 < 8 then .ok else .illegal := by
  simp only [Sys2Proof.decodeFrame, decodedStatus_ite_error, ne_eq, cwLow_eq_zero_iff, toNat_cwFunct]
  generalize p.cw.toNat / 256 % 16 = funct
  match funct with
  | 0 | 1 | 2 | 3 | 4 | 5 | 6 | 7 => rfl
  | n + 8 => simp [decodedStatus]

theorem decodedStatus_decodeAccess (p : Packet) : decodedStatus (.ok (decodeAccess p)) =
    if [160, 160, 8, 11, 256, 256].getD (p.cw.toNat / 256 % 8) 0 ≤ p.cw.toNat % 256 then .badAddress
    else if p.cw.toNat / 2048 % 2 = 1 ∧ p.cw.toNat / 256 % 8 = 1 then .access
    else .ok := by
  simp only [decodeAccess, cwDir_eq_zero_iff]
  obtain read | write := Nat.mod_two_eq_zero_or_one (p.cw.toNat / 2048)
  · simp [read, decodedStatus, commandStatus, readStatus, spaceSize_ofNum, toNat_cwSpace, toNat_cwLow]
  · simp [write, decodedStatus, commandStatus, writeStatus, spaceSize_ofNum, hostWritable_ofNum,
      toNat_cwSpace, toNat_cwLow]

theorem decodedStatus_decodeParam (p : Packet) : decodedStatus (decodeParam p) =
    if p.cw.toNat / 256 % 16 ≠ 0 then .illegal
    else if 5 ≤ p.cw.toNat % 256 then .badAddress else .ok := by
  simp only [decodeParam, decodedStatus_ite_error, ne_eq, cwFunct_eq_zero_iff, ← toNat_cwLow]
  rfl

/-! ### The three checks in order -/

/-- The status of a command word by the checks of 60_exceptions.md R354, in their order. -/
def wordStatus (w : Word) : Status :=
  if legalCW w = false then .illegal
  else if (w.toNat / 4096 = 1 ∧
      [160, 160, 8, 11, 256, 256].getD (w.toNat / 256 % 8) 0 ≤ w.toNat % 256) ∨
      (w.toNat / 4096 = 3 ∧ 5 ≤ w.toNat % 256) then .badAddress
  else if w.toNat / 4096 = 1 ∧ w.toNat / 2048 % 2 = 1 ∧ w.toNat / 256 % 8 = 1 then .access
  else .ok

/-- What the decoder makes of a packet has the status of its command word. -/
theorem decodedStatus_decode (p : Packet) : decodedStatus (decode p) = wordStatus p.cw := by
  simp only [decode, wordStatus, toNat_cwClass, ← Bool.not_eq_true, legalCW_iff]
  generalize p.cw.toNat / 4096 = cls
  match cls with
  | 0 => simp [decodedStatus_decodeArith, ite_and, -not_and]
  | 1 => simp [decodedStatus_decodeAccess]
  | 2 => simp [decodedStatus_decodeFrame, ite_and, -not_and]
  | 3 => simp [decodedStatus_decodeParam]
  | n + 4 => simp [decodedStatus]

/-- Settles O9: a step answers with the status of what it decodes to, which is the status of the word. -/
theorem statusPriority : Obligations.StatusPriority := by
  unfold Obligations.StatusPriority
  intro s p rest waiting
  obtain ⟨t, sat, y, stepped, response⟩ := (step_answers waiting).response
  rw [decodedStatus_decode] at response
  exact ⟨t, sat, y, stepped, response⟩

end Sys2Proof.Machine
end

section
/-! PROOFS. Reset (70_reset_and_hazards.md R380). The two reset values that come from the configuration
fit their registers by the ranges of 00_scope.md R10; every other register and every cell is a literal. -/

namespace Sys2Proof.Machine

/-- A step with reset as the next move performs it, whatever the registers and buffers hold. -/
theorem step_reset {s : State} {rest : List HostMove} (waiting : s.inbox = .reset :: rest) :
    step s = .next (State.resetKeepingInbox { s with inbox := rest }) := by
  unfold step
  simp only [waiting]

/-- `W0TAB(0)` is not cut to the width of `W0` (10_state.md R47). -/
theorem toNat_resetOf_w0 {c : Cfg} (hmin : 2 ≤ c.p2Min) :
    (Psrf.resetOf c).w0.toNat = 2 ^ 34 / (2 * c.p2Min + 1) :=
  calc (BitVec.ofNat 32 (w0Tab c.p2Min 0)).toNat
      = w0Tab c.p2Min 0 := Nat.mod_eq_of_lt (w0Tab_lt_two_pow_32 hmin)
    _ = 2 ^ 34 / (2 * c.p2Min + 1) := by rw [w0Tab, Nat.zero_add]

/-- `NOISE_SEED0` is not cut to the width of `SEED` (10_state.md R48). -/
theorem toNat_resetOf_seed {c : Cfg} (below : c.noiseSeed0 < c.noiseM) (modulus : c.noiseM ≤ 65536) :
    (Psrf.resetOf c).seed.toNat = c.noiseSeed0 :=
  Nat.mod_eq_of_lt (below.trans_le modulus)

/-- Every cell of every space reads as 0 after reset (20_memory.md R88). -/
@[simp] theorem readCell_zero (space : Space) (n : Nat) : Buffers.zero.readCell space n = 0 := by
  cases space with
  | absent6 | absent7 => rfl
  | pcmi | pcmo | fv | bs | spr | spi => simp [Buffers.readCell, Buffers.zero]

/-- Settles O13: the step lands in the reset state, whose two configured registers hold their values
uncut and whose arrays and buffers are zero throughout. -/
theorem resetValues : Obligations.ResetValues := by
  unfold Obligations.ResetValues
  intro s rest waiting
  obtain ⟨hmin, -⟩ := Config.pitchRange
  obtain ⟨-, modulus, -, -, below, -⟩ := Config.noise
  refine ⟨_, step_reset waiting, toNat_resetOf_w0 hmin, rfl, rfl, toNat_resetOf_seed below modulus,
    rfl, rfl, rfl, rfl, rfl, rfl, rfl, rfl, rfl, rfl, fun i => ?harmonics, fun i => ?tail,
    readCell_zero⟩
  case harmonics => simp
  case tail => simp

end Sys2Proof.Machine
end

section
/-! PROOFS. Packets (30_encoding.md R110 to R121). A command word is its fields side by side, so
the encoder's word gives the decoder its command back, with the operand words of the packet in the
operand places the row has; and a word that decodes is the word the encoder gives. -/

namespace Sys2Proof

/-! ### The fields of a command word, and the word of its fields (R113) -/

section

open BitVec (extractLsb'_append_eq_of_le extractLsb'_append_eq_left extractLsb'_append_eq_right)

variable (c f : BitVec 4) (low : BitVec 8)

@[simp] theorem cwLow_cwOf : cwLow (cwOf c f low) = low := extractLsb'_append_eq_right

@[simp] theorem cwFunct_cwOf : cwFunct (cwOf c f low) = f :=
  (extractLsb'_append_eq_of_le (by decide)).trans extractLsb'_append_eq_right

@[simp] theorem cwClass_cwOf : cwClass (cwOf c f low) = c :=
  (extractLsb'_append_eq_of_le (by decide)).trans extractLsb'_append_eq_left

end

/-- A word is its three fields side by side. -/
theorem cwOf_fields (w : Word) : cwOf (cwClass w) (cwFunct w) (cwLow w) = w := by
  apply BitVec.eq_of_toNat_eq
  rw [cwOf, toNat_append_eq_add, toNat_append_eq_add, toNat_cwClass, toNat_cwFunct, toNat_cwLow]
  omega

@[simp] theorem Space.num_ofNum (n : BitVec 3) : (Space.ofNum n).num = n := by
  revert n
  decide

/-- A word of class 1 is the fields of format M side by side (R115). -/
theorem cwAccess_fields {w : Word} (cls : cwClass w = 1) :
    cwAccess (cwDir w) (Space.ofNum (cwSpace w)) (cwLow w) = w := by
  have value : w.toNat / 4096 = 1 := by rw [← toNat_cwClass, cls]; rfl
  apply BitVec.eq_of_toNat_eq
  rw [cwAccess, Space.num_ofNum, toNat_append_eq_add, toNat_append_eq_add, toNat_append_eq_add,
    toNat_cwDir, toNat_cwSpace, toNat_cwLow]
  simp only [BitVec.reduceToNat]
  omega

/-! ### From the encoder's word back to the command -/

/-- The command with the operand words `a` and `b` in the operand places its row of R119 has. -/
def Instr.withOperands (a b : Word) : Instr → Instr
  | .sadd _ _ => .sadd a b
  | .ssub _ _ => .ssub a b
  | .smul _ _ => .smul a b
  | .sshl _ _ => .sshl a b
  | .sshr _ _ => .sshr a b
  | .wrbuf space index _ => .wrbuf space index a
  | i => i

/-- The operands that `encode` lays down are the command's own. -/
theorem withOperands_encode (i : Instr) : i.withOperands (encode i).a (encode i).b = i := by
  cases i <;> rfl

theorem mnemonicOf_withOperands (a b : Word) (i : Instr) :
    Machine.mnemonicOf (i.withOperands a b) = Machine.mnemonicOf i := by
  cases i <;> rfl

/-- The decoder takes the command from the encoder's word and the operands from the packet. -/
theorem decode_encode_cw (i : Instr) (a b : Word) :
    decode ⟨(encode i).cw, a, b⟩ = .ok (i.withOperands a b) := by
  cases i with
  | rdbuf space index => exact decode_cwAccess 0 space index a b
  | wrbuf space index data => exact decode_cwAccess 1 space index a b
  | sadd | ssub | smul | sshl | sshr => simp [encode, decode, decodeArith, Instr.withOperands]
  | encode | decode | encodebits | decodebits | pack | unpack | fft | ifft =>
    simp [encode, decode, decodeFrame, Instr.withOperands]
  | rdparam sel => simp [encode, decode, decodeParam, Instr.withOperands]

/-- A packet with the encoder's word decodes to that command with the packet's operand words. -/
theorem decode_of_encode_cw_eq {p : Packet} {i : Instr} (word : (encode i).cw = p.cw) :
    decode p = .ok (i.withOperands p.a p.b) :=
  (congrArg (fun w => decode ⟨w, p.a, p.b⟩) word).symm.trans (decode_encode_cw i p.a p.b)

/-- Settles O1: the packet of a command carries the command's own operands. -/
theorem decodeOfEncodeIsIdentity : Obligations.DecodeOfEncodeIsIdentity := by
  unfold Obligations.DecodeOfEncodeIsIdentity
  intro i
  calc decode (encode i)
      = .ok (i.withOperands (encode i).a (encode i).b) := decode_of_encode_cw_eq rfl
    _ = .ok i := by rw [withOperands_encode]

/-! ### From a packet that decodes back to its word -/

/-- The word of a format R or F command whose `funct` is known. -/
theorem cwOf_eq_of_funct {c f f' : BitVec 4} {low : BitVec 8} (hf : f'.toNat = f.toNat)
    (hlow : ¬low ≠ 0) : cwOf c f 0 = cwOf c f' low := by
  rw [BitVec.eq_of_toNat_eq hf, not_ne_iff.mp hlow]

theorem encode_cw_of_decodeArith {p : Packet} {i : Instr} (h : decodeArith p = .ok i) :
    (encode i).cw = cwOf 0 (cwFunct p.cw) (cwLow p.cw) := by
  unfold decodeArith at h
  split_ifs at h with low
  split at h <;> cases h <;> exact cwOf_eq_of_funct ‹_› low

theorem encode_cw_of_decodeFrame {p : Packet} {i : Instr} (h : decodeFrame p = .ok i) :
    (encode i).cw = cwOf 2 (cwFunct p.cw) (cwLow p.cw) := by
  unfold decodeFrame at h
  split_ifs at h with low
  split at h <;> cases h <;> exact cwOf_eq_of_funct ‹_› low

theorem encode_cw_of_decodeParam {p : Packet} {i : Instr} (h : decodeParam p = .ok i) :
    (encode i).cw = cwOf 3 (cwFunct p.cw) (cwLow p.cw) := by
  unfold decodeParam at h
  split_ifs at h with funct
  cases h
  rw [not_ne_iff.mp funct]
  rfl

theorem encode_cw_decodeAccess (p : Packet) : (encode (decodeAccess p)).cw =
    cwAccess (cwDir p.cw) (Space.ofNum (cwSpace p.cw)) (cwLow p.cw) := by
  unfold decodeAccess
  obtain read | write : cwDir p.cw = 0 ∨ cwDir p.cw = 1 := by
    generalize cwDir p.cw = dir
    revert dir
    decide
  · rw [if_pos read, read]
    rfl
  · rw [write, if_neg (by decide)]
    rfl

/-- What a packet decodes to has the packet's command word. -/
theorem encode_cw_of_decode {p : Packet} {i : Instr} (h : decode p = .ok i) :
    (encode i).cw = p.cw := by
  unfold decode at h
  split at h
  case h_1 cls =>
    rw [encode_cw_of_decodeArith h, ← BitVec.eq_of_toNat_eq (y := 0) cls, cwOf_fields]
  case h_2 cls =>
    cases h
    rw [encode_cw_decodeAccess, cwAccess_fields (BitVec.eq_of_toNat_eq (y := 1) cls)]
  case h_3 cls =>
    rw [encode_cw_of_decodeFrame h, ← BitVec.eq_of_toNat_eq (y := 2) cls, cwOf_fields]
  case h_4 cls =>
    rw [encode_cw_of_decodeParam h, ← BitVec.eq_of_toNat_eq (y := 3) cls, cwOf_fields]
  case h_5 => cases h

/-- A packet with the word of one that decodes to `i` decodes to `i` with its own operand words. -/
theorem decode_of_cw_eq {p : Packet} {i : Instr} (h : decode p = .ok i) (a b : Word) :
    decode ⟨p.cw, a, b⟩ = .ok (i.withOperands a b) := by
  rw [← encode_cw_of_decode h]
  exact decode_encode_cw i a b

/-- What a packet decodes to carries the packet's operand words. -/
theorem withOperands_of_decode {p : Packet} {i : Instr} (h : decode p = .ok i) :
    i.withOperands p.a p.b = i :=
  Except.ok.inj ((decode_of_cw_eq h p.a p.b).symm.trans h)

/-! ### The operand words a command uses (R111, R119) -/

theorem encode_withOperands_a {i : Instr} (uses : Machine.usesA i = true) (a b : Word) :
    (encode (i.withOperands a b)).a = a := by
  cases i with
  | sadd | ssub | smul | sshl | sshr | wrbuf => rfl
  | _ => cases uses

theorem encode_withOperands_b {i : Instr} (uses : Machine.usesB i = true) (a b : Word) :
    (encode (i.withOperands a b)).b = b := by
  cases i with
  | sadd | ssub | smul | sshl | sshr => rfl
  | _ => cases uses

theorem withOperands_of_not_usesA {i : Instr} (ignores : Machine.usesA i = false) (a a' b : Word) :
    i.withOperands a b = i.withOperands a' b := by
  cases i with
  | sadd | ssub | smul | sshl | sshr | wrbuf => cases ignores
  | _ => rfl

theorem withOperands_of_not_usesB {i : Instr} (ignores : Machine.usesB i = false) (a b b' : Word) :
    i.withOperands a b = i.withOperands a b' := by
  cases i with
  | sadd | ssub | smul | sshl | sshr => cases ignores
  | _ => rfl

/-- Settles O3: the packet has `i`'s word, and `i` is `i` with the packet's operand words, which a
word that the row does not use leaves as it is. -/
theorem decodedPacketCarriesItsOperands : Obligations.DecodedPacketCarriesItsOperands := by
  unfold Obligations.DecodedPacketCarriesItsOperands
  intro p i h
  have own : i.withOperands p.a p.b = i := withOperands_of_decode h
  refine ⟨encode_cw_of_decode h, fun uses => ?_, fun uses => ?_, fun ignores a => ?_,
    fun ignores b => ?_⟩
  · rw [← own]
    exact encode_withOperands_a uses _ _
  · rw [← own]
    exact encode_withOperands_b uses _ _
  · rw [decode_of_cw_eq h, withOperands_of_not_usesA ignores a p.a, own]
  · rw [decode_of_cw_eq h, withOperands_of_not_usesB ignores p.a b p.b, own]

/-! ### The opcode map (R119, R120) -/

/-- The word of every command is legal. -/
theorem legalCW_encode (i : Instr) : legalCW (encode i).cw = true :=
  match i with
  | .sadd a b => Laws.EncodesLegalWord.sadd a b
  | .ssub a b => Laws.EncodesLegalWord.ssub a b
  | .smul a b => Laws.EncodesLegalWord.smul a b
  | .sshl a n => Laws.EncodesLegalWord.sshl a n
  | .sshr a n => Laws.EncodesLegalWord.sshr a n
  | .rdbuf space index => Laws.EncodesLegalWord.rdbuf space index
  | .wrbuf space index data => Laws.EncodesLegalWord.wrbuf space index data
  | .encode => Laws.EncodesLegalWord.encode
  | .decode => Laws.EncodesLegalWord.decode
  | .encodebits => Laws.EncodesLegalWord.encodebits
  | .decodebits => Laws.EncodesLegalWord.decodebits
  | .pack => Laws.EncodesLegalWord.pack
  | .unpack => Laws.EncodesLegalWord.unpack
  | .fft => Laws.EncodesLegalWord.fft
  | .ifft => Laws.EncodesLegalWord.ifft
  | .rdparam sel => Laws.EncodesLegalWord.rdparam sel

/-- One command for each row of the map that fixes the whole word. -/
def fixedWordCommands : List Instr :=
  [.sadd 0 0, .ssub 0 0, .smul 0 0, .sshl 0 0, .sshr 0 0, .encode, .decode, .encodebits,
    .decodebits, .pack, .unpack, .fft, .ifft]

/-- A row fixes the whole word of a command, or it is one of the three that leave fields of the word
to the operands. -/
theorem opcodeMap_cases : ∀ r ∈ opcodeMap,
    (r.mask = 0xFFFF ∧ ∃ i ∈ fixedWordCommands,
      (encode i).cw = r.pat ∧ Machine.mnemonicOf i = r.mnemonic) ∨
    r = ⟨"RDBUF", 0x1000, 0xF800⟩ ∨ r = ⟨"WRBUF", 0x1800, 0xF800⟩ ∨
    r = ⟨"RDPARAM", 0x3000, 0xFF00⟩ := by
  decide

/-- A word of class 1 with a known `dir`, as the fields of format M. -/
theorem cwAccess_fields_of_toNat {w : Word} {dir : BitVec 1}
    (high : w.toNat / 2 ^ 11 * 2 ^ 11 = 4096 + 2048 * dir.toNat) :
    cwAccess dir (Space.ofNum (cwSpace w)) (cwLow w) = w := by
  have cls : cwClass w = 1 := BitVec.eq_of_toNat_eq ((toNat_cwClass w).trans (show _ = 1 by omega))
  have side : dir = cwDir w := BitVec.eq_of_toNat_eq (by rw [toNat_cwDir]; omega)
  rw [side, cwAccess_fields cls]

/-- A row that selects a word stands for a command with that word. -/
theorem exists_encode_of_selects {r : OpcodeRow} {w : Word} (mem : r ∈ opcodeMap)
    (selects : r.selects w = true) :
    ∃ i, (encode i).cw = w ∧ Machine.mnemonicOf i = r.mnemonic := by
  obtain ⟨mask, i, -, word, name⟩ | rfl | rfl | rfl := opcodeMap_cases r mem
  · have whole : w.toNat / 2 ^ 0 * 2 ^ 0 = r.pat.toNat :=
      (selects_iff_of_mask (n := 0) mask w).mp selects
    refine ⟨i, word.trans (BitVec.eq_of_toNat_eq ?_), name⟩
    simpa using whole.symm
  · have high : w.toNat / 2 ^ 11 * 2 ^ 11 = 4096 := (selects_iff_of_mask rfl w).mp selects
    exact ⟨.rdbuf _ _, cwAccess_fields_of_toNat (dir := 0) high, rfl⟩
  · have high : w.toNat / 2 ^ 11 * 2 ^ 11 = 6144 := (selects_iff_of_mask rfl w).mp selects
    exact ⟨.wrbuf _ _ 0, cwAccess_fields_of_toNat (dir := 1) high, rfl⟩
  · have high : w.toNat / 2 ^ 8 * 2 ^ 8 = 12288 := (selects_iff_of_mask rfl w).mp selects
    have cls : cwClass w = 3 :=
      BitVec.eq_of_toNat_eq ((toNat_cwClass w).trans (show _ = 3 by omega))
    have funct : cwFunct w = 0 :=
      BitVec.eq_of_toNat_eq ((toNat_cwFunct w).trans (show _ = 0 by omega))
    refine ⟨.rdparam (cwLow w), ?_, rfl⟩
    calc cwOf 3 0 (cwLow w) = cwOf (cwClass w) (cwFunct w) (cwLow w) := by rw [cls, funct]
      _ = w := cwOf_fields w

/-- Rows that select one word agree on the bits both of them fix. -/
theorem OpcodeRow.agree_of_selects {r q : OpcodeRow} {w : Word} (hr : r.selects w = true)
    (hq : q.selects w = true) : r.pat &&& q.mask = q.pat &&& r.mask := by
  rw [OpcodeRow.selects, beq_iff_eq] at hr hq
  rw [← hr, ← hq, BitVec.and_assoc, BitVec.and_assoc, BitVec.and_comm r.mask]

/-- No two rows of the map agree on the bits both of them fix. -/
theorem opcodeMap_unambiguous :
    ∀ r ∈ opcodeMap, ∀ q ∈ opcodeMap, r.pat &&& q.mask = q.pat &&& r.mask → r = q := by
  decide

/-- A word is legal exactly when a packet with it decodes. -/
theorem exists_decode_iff_legalCW (p : Packet) :
    (∃ i, decode p = .ok i) ↔ legalCW p.cw = true := by
  constructor
  · rintro ⟨i, h⟩
    exact encode_cw_of_decode h ▸ legalCW_encode i
  · intro legal
    obtain ⟨r, mem, selects⟩ := List.any_eq_true.mp legal
    obtain ⟨i, word, -⟩ := exists_encode_of_selects mem selects
    exact ⟨i.withOperands p.a p.b, decode_of_encode_cw_eq word⟩

/-- The packets that are rejected are those that decode to no command. -/
theorem exists_error_iff_legalCW (p : Packet) :
    (∃ e, decode p = .error e) ↔ legalCW p.cw = false := by
  rw [← Bool.not_eq_true, ← exists_decode_iff_legalCW]
  cases decode p <;> simp

/-- Settles O2: a row that selects a word stands for a command of that word, a word without a row is
the word of no command, and rows that share a word agree on the bits both fix. -/
theorem opcodeMapIsTheDecoder : Obligations.OpcodeMapIsTheDecoder := by
  unfold Obligations.OpcodeMapIsTheDecoder
  refine ⟨fun p r mem selects => ?_, fun p => (exists_error_iff_legalCW p).mpr,
    fun w r hr q hq sr sq => ?_⟩
  · obtain ⟨i, word, name⟩ := exists_encode_of_selects mem selects
    exact ⟨i.withOperands p.a p.b, decode_of_encode_cw_eq word,
      (mnemonicOf_withOperands _ _ i).trans name⟩
  · exact opcodeMap_unambiguous r hr q hq (OpcodeRow.agree_of_selects sr sq)

/-- Settles O4: the rejected words are those that are not legal, and the legal ones are known
class by class. -/
theorem illegalWordsAreExactlyTheReserved : Obligations.IllegalWordsAreExactlyTheReserved := by
  unfold Obligations.IllegalWordsAreExactlyTheReserved
  intro p cls funct low
  rw [exists_error_iff_legalCW, ← Bool.not_eq_true, legalCW_iff]
  omega

/-! ### Words written out, and the places of the fields -/

/-- Settles O5: each word is the encoder's for its command, and the last selects no row. -/
theorem sampleWordsDecode : Obligations.SampleWordsDecode := by
  unfold Obligations.SampleWordsDecode
  exact ⟨decode_encode_cw (.sadd 0 0) _ _, decode_encode_cw (.wrbuf .pcmi 5 0) _ _,
    decode_encode_cw (.rdbuf .bs 11) _ _, decode_encode_cw .decodebits _ _,
    decode_encode_cw (.rdparam 4) _ _, by decide⟩

theorem toNat_response_bits (r : Machine.Response) :
    r.bits.toNat = (r.st.code.toNat * 2 + r.sat.toNat) * 2 ^ 16 + r.y.toNat := by
  rw [Machine.Response.bits, toNat_append_eq_add, toNat_append_eq_add, BitVec.toNat_ofBool, pow_one]

/-- Settles O6: a cut of the packet is a quotient and a remainder, and the response is a sum of its
fields, each below the place of the next. -/
theorem packetAndResponseFields : Obligations.PacketAndResponseFields := by
  unfold Obligations.PacketAndResponseFields
  refine ⟨fun p => ?_, fun r => ?_⟩
  · simp only [Packet.ofBits, BitVec.extractLsb'_toNat, Nat.shiftRight_eq_div_pow, pow_zero,
      Nat.div_one, and_self, and_true]
    omega
  · have sat : r.sat.toNat < 2 := Bool.toNat_lt r.sat
    rw [toNat_response_bits]
    omega

end Sys2Proof
end

section
/-! PROOFS. The step and the answers of every command (00_scope.md R16, 60_exceptions.md R351 to
R364): every command completes and keeps the port, only a frame command writes the PSRF, and the
error of a command is fixed by its operands. -/

namespace Sys2Proof.Machine

/-! ### The step, move by move -/

/-- Settles O12: the step's first case. -/
theorem idleStepKeepsTheState : Obligations.IdleStepKeepsTheState := by
  unfold Obligations.IdleStepKeepsTheState
  intro s idle
  unfold step
  rw [idle]

theorem step_packet_ok {s : State} {p : Packet} {rest : List HostMove} {i : Instr}
    (waiting : s.inbox = .packet p :: rest) (decoded : decode p = .ok i) :
    step s = exec i { s with inbox := rest } := by
  unfold step
  simp only [waiting, decoded]

theorem step_packet_error {s : State} {p : Packet} {rest : List HostMove} {e : Illegal}
    (waiting : s.inbox = .packet p :: rest) (rejected : decode p = .error e) :
    step s = .next (State.raise { s with inbox := rest } .illegal) := by
  unfold step
  simp only [waiting, rejected]

/-- Settles O7: the step's case of a packet that decodes. -/
theorem stepRunsTheDecodedCommand : Obligations.StepRunsTheDecodedCommand := by
  unfold Obligations.StepRunsTheDecodedCommand
  intro s p rest i
  exact step_packet_ok

/-! ### What every command keeps -/

/-- Every command completes, leaves the port's list alone, and leaves the PSRF alone unless it is a
frame command (10_state.md R34). -/
theorem exec_next (i : Instr) (s : State) :
    ∃ t, exec i s = .next t ∧ t.inbox = s.inbox ∧ (isFrameCommand i = false → t.psrf = s.psrf) :=
  match i with
  | .sadd _ _ | .ssub _ _ | .smul _ _ | .sshl _ _ | .sshr _ _ => ⟨_, rfl, rfl, fun _ => rfl⟩
  | .rdbuf space index => ⟨_, execRdbuf_eq space index s, by split_ifs <;> simp⟩
  | .wrbuf space index data => ⟨_, execWrbuf_eq space index data s, by split_ifs <;> simp⟩
  | .encode | .decode | .encodebits | .decodebits => ⟨_, rfl, rfl, nofun⟩
  | .pack | .unpack | .fft | .ifft => ⟨_, rfl, rfl, fun _ => rfl⟩
  | .rdparam sel => ⟨_, execRdparam_eq sel s, rfl, fun _ => rfl⟩

/-- Settles O56: the last part of what every command keeps. -/
theorem onlyFrameCommandsWriteThePsrf : Obligations.OnlyFrameCommandsWriteThePsrf := by
  unfold Obligations.OnlyFrameCommandsWriteThePsrf
  intro i notFrame s
  obtain ⟨t, run, -, psrf⟩ := exec_next i s
  exact ⟨t, run, psrf notFrame⟩

/-- A step that takes a packet leaves the rest of the port's list. -/
theorem step_packet_inbox {s t : State} {p : Packet} {rest : List HostMove}
    (waiting : s.inbox = .packet p :: rest) (stepped : step s = .next t) : t.inbox = rest := by
  cases decoded : decode p with
  | ok i =>
    obtain ⟨u, run, inbox, -⟩ := exec_next i { s with inbox := rest }
    obtain rfl : u = t :=
      Host.Outcome.next.inj ((run.symm.trans (step_packet_ok waiting decoded).symm).trans stepped)
    exact inbox
  | error e =>
    obtain rfl := Host.Outcome.next.inj ((step_packet_error waiting decoded).symm.trans stepped)
    rfl

/-- Settles O8: a packet is answered with the status of what it decodes to. -/
theorem everyPacketIsAnswered : Obligations.EveryPacketIsAnswered := by
  unfold Obligations.EveryPacketIsAnswered
  intro s p rest waiting
  obtain ⟨t, sat, y, stepped, response⟩ := (step_answers waiting).response
  exact ⟨t, _, stepped, step_packet_inbox waiting stepped, response⟩

/-! ### The error of every command (60_exceptions.md R352, R353, R355) -/

/-- The cells that do not exist, space by space (20_memory.md R80). -/
theorem spaceSize_le_iff (space : Space) (index : BitVec 8) :
    spaceSize space ≤ index.toNat ↔
      space = .absent6 ∨ space = .absent7 ∨
        (160 ≤ index.toNat ∧ (space = .pcmi ∨ space = .pcmo)) ∨
        (8 ≤ index.toNat ∧ space = .fv) ∨ (11 ≤ index.toNat ∧ space = .bs) := by
  have byte : index.toNat < 256 := index.isLt
  cases space <;> simp [spaceSize, byte]

theorem readStatus_ne_illegal (space : Space) (index : BitVec 8) :
    readStatus space index ≠ .illegal := by
  unfold readStatus
  split_ifs <;> nofun

theorem writeStatus_ne_illegal (space : Space) (index : BitVec 8) :
    writeStatus space index ≠ .illegal := by
  unfold writeStatus
  split_ifs <;> nofun

theorem readStatus_eq_badAddress_iff (space : Space) (index : BitVec 8) :
    readStatus space index = .badAddress ↔ spaceSize space ≤ index.toNat := by
  unfold readStatus
  split_ifs with outside <;> simp [outside]

theorem writeStatus_eq_badAddress_iff (space : Space) (index : BitVec 8) :
    writeStatus space index = .badAddress ↔ spaceSize space ≤ index.toNat := by
  unfold writeStatus
  split_ifs with outside <;> simp [outside]

theorem readStatus_ne_access (space : Space) (index : BitVec 8) :
    readStatus space index ≠ .access := by
  unfold readStatus
  split_ifs <;> nofun

theorem writeStatus_eq_access_iff (space : Space) (index : BitVec 8) :
    writeStatus space index = .access ↔ space = .pcmo ∧ index.toNat < 160 := by
  have writable := hostWritable_iff space
  unfold writeStatus
  split_ifs with outside allowed
  · refine iff_of_false nofun ?_
    rintro ⟨rfl, inside⟩
    exact Nat.not_le.mpr inside outside
  · exact iff_of_false nofun fun ⟨pcmo, _⟩ => writable.mp allowed pcmo
  · obtain rfl : space = .pcmo := not_not.mp (mt writable.mpr allowed)
    exact iff_of_true rfl ⟨rfl, Nat.not_le.mp outside⟩

theorem commandStatus_ne_illegal (i : Instr) : commandStatus i ≠ .illegal := by
  cases i with
  | rdbuf space index => exact readStatus_ne_illegal space index
  | wrbuf space index data => exact writeStatus_ne_illegal space index
  | rdparam sel =>
    simp only [commandStatus]
    split_ifs <;> nofun
  | _ => nofun

/-- `BAD_ADDRESS` names a cell that is not there or a word that is not in the view. -/
theorem commandStatus_eq_badAddress_iff (i : Instr) :
    commandStatus i = .badAddress ↔
      (∃ space index, (i = .rdbuf space index ∨ ∃ data, i = .wrbuf space index data) ∧
        spaceSize space ≤ index.toNat) ∨
      ∃ sel : BitVec 8, i = .rdparam sel ∧ 5 ≤ sel.toNat := by
  cases i with
  | rdbuf space index => simp [commandStatus, readStatus_eq_badAddress_iff]
  | wrbuf space index data => simp [commandStatus, writeStatus_eq_badAddress_iff]
  | rdparam sel => simp [commandStatus]
  | _ => simp [commandStatus]

/-- `ACCESS` names a cell of `PCMO` that is there. -/
theorem commandStatus_eq_access_iff (i : Instr) :
    commandStatus i = .access ↔ ∃ index data, i = .wrbuf .pcmo index data ∧ index.toNat < 160 := by
  cases i with
  | rdbuf space index => simp [commandStatus, readStatus_ne_access]
  | wrbuf space index data => simp [commandStatus, writeStatus_eq_access_iff]
  | rdparam sel =>
    simp only [commandStatus]
    split_ifs <;> simp
  | _ => simp [commandStatus]

/-- Settles O11: every command answers with the status its operands fix. -/
theorem errorsOfEveryCommand : Obligations.ErrorsOfEveryCommand := by
  unfold Obligations.ErrorsOfEveryCommand
  intro i s
  obtain ⟨t, sat, y, run, response⟩ := (exec_answers i s).response
  refine ⟨t, _, run, response, commandStatus_ne_illegal i, ?_, commandStatus_eq_access_iff i⟩
  simp only [commandStatus_eq_badAddress_iff, spaceSize_le_iff]

/-! ### The parameter view (42_buffer_param_access.md R194) -/

/-- A command word of format P is its selector added at the low end. -/
theorem cwOf_param_eq_add (sel : BitVec 8) : cwOf 3 0 sel = 0x3000 + sel.setWidth 16 := by
  have value : (cwOf 3 0 sel).toNat = 48 * 256 + sel.toNat :=
    (toNat_append_eq_add _ _).trans (by rw [toNat_append_eq_add]; rfl)
  apply BitVec.eq_of_toNat_eq
  rw [value]
  bv_omega

theorem decode_rdparam (sel : BitVec 8) (a b : Word) :
    decode ⟨0x3000 + sel.setWidth 16, a, b⟩ = .ok (.rdparam sel) :=
  cwOf_param_eq_add sel ▸ decode_encode_cw (.rdparam sel) a b

theorem exec_rdparam_of_viewWord {s : State} {sel : BitVec 8} {y : Word}
    (word : s.psrf.viewWord sel = some y) : exec (.rdparam sel) s = .next (s.answer y false) := by
  show execRdparam sel s = _
  rw [execRdparam, word]

theorem exec_rdparam_of_no_viewWord {s : State} {sel : BitVec 8}
    (absent : s.psrf.viewWord sel = none) :
    exec (.rdparam sel) s = .next (s.raise .badAddress) := by
  show execRdparam sel s = _
  rw [execRdparam, absent]

/-- Settles O23: the view has a word exactly for the selectors 0 to 4, and the answer carries it. -/
theorem rdparamAnswersTheViewWord : Obligations.RdparamAnswersTheViewWord := by
  unfold Obligations.RdparamAnswersTheViewWord
  intro sel a b s
  have view := isSome_viewWord s.psrf sel
  refine ⟨decode_rdparam sel a b, fun above => ?_, fun below => ?_⟩
  · have absent : s.psrf.viewWord sel = none := by simpa [Nat.not_lt.mpr above] using view
    exact exec_rdparam_of_no_viewWord absent
  · obtain ⟨y, word⟩ : ∃ y, s.psrf.viewWord sel = some y := by
      simpa [below, Option.isSome_iff_exists] using view
    refine ⟨y, exec_rdparam_of_viewWord word, ?_, ?_, ?_, ?_, ?_⟩ <;> rintro rfl <;>
      obtain rfl := Option.some.inj word
    · simp [BitVec.extractLsb'_toNat]
    · have := s.psrf.w0.isLt
      simp only [BitVec.extractLsb'_toNat, Nat.shiftRight_eq_div_pow]
      omega
    · rfl
    · rfl
    · rfl

end Sys2Proof.Machine
end

section
/-! PROOFS. The integer functions of 00_scope.md R14 and 40_alu.md R150, R151: the square root by
trial bits, and the logarithm with a linear mantissa, whose two parts are the exponent and the
significand. -/

namespace Sys2Proof.Machine

/-! ### The square root -/

/-- `r` is the largest number whose square is at most `v`. -/
structure IsRoot (v r : Nat) : Prop where
  sq_le : r * r ≤ v
  lt_succ_sq : v < (r + 1) * (r + 1)

theorem IsRoot.le {v r k : Nat} (root : IsRoot v r) (h : k * k ≤ v) : k ≤ r :=
  Nat.le_of_lt_succ (Nat.mul_self_lt_mul_self_iff.mp (h.trans_lt root.lt_succ_sq))

/-- With the root of `v` in `r .. r + 2^b - 1`, trying the bits below `b` finds it. -/
theorem isRoot_isqrtFrom {v b r : Nat} (lo : r * r ≤ v) (hi : v < (r + 2 ^ b) * (r + 2 ^ b)) :
    IsRoot v (isqrtFrom v b r) := by
  induction b generalizing r with
  | zero => exact ⟨lo, hi⟩
  | succ b ih =>
    have double : r + 2 ^ (b + 1) = r + 2 ^ b + 2 ^ b := by ring
    rw [isqrtFrom]
    split_ifs with fits
    · exact ih fits (double ▸ hi)
    · exact ih lo (Nat.lt_of_not_le fits)

theorem isRoot_isqrt (v : Nat) : IsRoot v (isqrt v) := by
  refine isRoot_isqrtFrom (Nat.zero_le v) ?_
  calc v < 2 ^ (v.log2 + 1) := Nat.lt_log2_self
    _ ≤ 2 ^ ((v.log2 / 2 + 1) + (v.log2 / 2 + 1)) := Nat.pow_le_pow_right (by decide) (by omega)
    _ = (0 + 2 ^ (v.log2 / 2 + 1)) * (0 + 2 ^ (v.log2 / 2 + 1)) := by rw [Nat.zero_add, pow_add]

/-- Settles O20, by the invariant of the trial bits. -/
theorem isqrtIsTheLargestRoot : Obligations.IsqrtIsTheLargestRoot := by
  unfold Obligations.IsqrtIsTheLargestRoot
  exact fun v => ⟨(isRoot_isqrt v).sq_le, fun r => (isRoot_isqrt v).le⟩

/-! ### The logarithm: exponent and significand -/

/-- The Q8 significand of `x`, in 256..511 for a positive `x` below 2^15. -/
def significand (x : Nat) : Nat := x * 2 ^ (15 - x.log2) / 2 ^ 7

variable {x y v : Nat}

theorem log2_le_14 (pos : x ≠ 0) (hx : x ≤ 32767) : x.log2 ≤ 14 :=
  Nat.le_of_lt_succ ((Nat.log2_lt pos).mpr (hx.trans_lt (by norm_num)))

theorem significand_range (pos : x ≠ 0) (hx : x ≤ 32767) :
    256 ≤ significand x ∧ significand x < 512 := by
  have exponent := log2_le_14 pos hx
  have lo : 2 ^ 15 ≤ x * 2 ^ (15 - x.log2) :=
    calc 2 ^ 15 = 2 ^ x.log2 * 2 ^ (15 - x.log2) := by rw [← pow_add, Nat.add_sub_of_le (by omega)]
      _ ≤ x * 2 ^ (15 - x.log2) := Nat.mul_le_mul_right _ (Nat.log2_self_le pos)
  have hi : x * 2 ^ (15 - x.log2) < 2 ^ 16 :=
    calc x * 2 ^ (15 - x.log2)
        < 2 ^ (x.log2 + 1) * 2 ^ (15 - x.log2) :=
          Nat.mul_lt_mul_of_pos_right Nat.lt_log2_self (by positivity)
      _ = 2 ^ 16 := by rw [← pow_add]; congr 1; omega
  unfold significand
  omega

/-- `LOG2Q(x)` is 256 times the exponent plus the significand without its leading 1. -/
theorem log2Q_eq (pos : x ≠ 0) : log2Q x = x.log2 * 256 + (significand x - 256) := by
  rw [log2Q, if_neg pos, significand, ← Nat.sub_mul_div]
  rfl

theorem log2Q_lt_succ_exponent (pos : x ≠ 0) (hx : x ≤ 32767) : log2Q x < (x.log2 + 1) * 256 := by
  have range := significand_range pos hx
  rw [log2Q_eq pos]
  omega

theorem log2Q_le (hx : x ≤ 32767) : log2Q x ≤ 3839 := by
  by_cases pos : x = 0
  · simp [pos, log2Q]
  · have exponent := log2_le_14 pos hx
    have below := log2Q_lt_succ_exponent pos hx
    omega

/-- Under equal exponents the significands compare; a smaller exponent is a whole octave less. -/
theorem log2Q_mono (le : x ≤ y) (hy : y ≤ 32767) : log2Q x ≤ log2Q y := by
  by_cases pos : x = 0
  · simp [pos, log2Q]
  have posy : y ≠ 0 := by omega
  have exponents : x.log2 ≤ y.log2 := (Nat.le_log2 posy).mpr ((Nat.log2_self_le pos).trans le)
  obtain lt | eq := exponents.lt_or_eq
  · have below := log2Q_lt_succ_exponent pos (le.trans hy)
    have above := log2Q_eq posy
    omega
  · have significands : significand x ≤ significand y := by
      rw [significand, significand, eq]
      exact Nat.div_le_div_right (Nat.mul_le_mul_right _ le)
    rw [log2Q_eq pos, log2Q_eq posy, eq]
    omega

/-! ### The antilogarithm -/

theorem exp2Q_le (hv : v ≤ 3839) : exp2Q v ≤ 32704 := by
  unfold exp2Q
  split_ifs
  · exact Nat.zero_le _
  · calc (256 + v % 256) * 2 ^ (v / 256) / 2 ^ 8
        ≤ 511 * 2 ^ 14 / 2 ^ 8 := by
          refine Nat.div_le_div_right (Nat.mul_le_mul (by omega) ?_)
          exact Nat.pow_le_pow_right (by decide) (by omega)
      _ = 32704 := by norm_num

/-- The significand read back at its exponent drops only the bits below 1/256 of it. -/
theorem exp2Q_log2Q_le (pos : x ≠ 0) (hx : x ≤ 32767) : exp2Q (log2Q x) ≤ x := by
  have exponent := log2_le_14 pos hx
  have range := significand_range pos hx
  unfold exp2Q
  split_ifs
  · exact Nat.zero_le x
  have low : 256 + log2Q x % 256 = significand x := by rw [log2Q_eq pos]; omega
  have high : log2Q x / 256 = x.log2 := by rw [log2Q_eq pos]; omega
  rw [low, high]
  refine Nat.div_le_of_le_mul (Nat.le_of_mul_le_mul_left (c := 2 ^ 7) ?_ (by norm_num))
  calc 2 ^ 7 * (significand x * 2 ^ x.log2)
      = 2 ^ 7 * significand x * 2 ^ x.log2 := (mul_assoc _ _ _).symm
    _ ≤ x * 2 ^ (15 - x.log2) * 2 ^ x.log2 := Nat.mul_le_mul_right _ (Nat.mul_div_le _ _)
    _ = x * 2 ^ 15 := by rw [mul_assoc, ← pow_add, Nat.sub_add_cancel (by omega)]
    _ = 2 ^ 7 * (2 ^ 8 * x) := by ring

/-- Settles O19, from the exponent and the significand of the logarithm. -/
theorem logAndAntilogBounds : Obligations.LogAndAntilogBounds := by
  unfold Obligations.LogAndAntilogBounds
  exact ⟨fun x y => log2Q_mono, fun x => log2Q_le, fun v => exp2Q_le,
    fun x pos => exp2Q_log2Q_le (Nat.one_le_iff_ne_zero.mp pos)⟩

end Sys2Proof.Machine
end

section
/-! PROOFS. The transform and the sine table (41_fft.md R171 to R176). From an impulse in cell 0
every stage doubles a block of equal values: the lower input of each butterfly that matters is
zero, and then both outputs are the scaled upper input. -/

namespace Sys2Proof.Machine

/-! ### The halving step and the forward butterfly (R173, R174) -/

/-- `SSHR(x, 1)` is half of `x`, rounded down. -/
theorem s16_sshr_one (x : Word) : s16 (sshr x 1) = s16 x / 2 := by
  have range := s16_range x
  calc s16 (sshr x 1) = sat16 (s16 x / 2) := s16_sshr x 1
    _ = s16 x / 2 := sat16_of_range (by omega) (by omega)

/-- The sum of two halves is in range. -/
theorem s16_sadd_halves (x y : Word) :
    s16 (sadd (sshr x 1) (sshr y 1)) = s16 x / 2 + s16 y / 2 := by
  have hx := s16_range x
  have hy := s16_range y
  rw [s16_sadd, s16_sshr_one, s16_sshr_one, sat16_of_range (by omega) (by omega)]

/-- The difference of two halves is in range. -/
theorem s16_ssub_halves (x y : Word) :
    s16 (ssub (sshr x 1) (sshr y 1)) = s16 x / 2 - s16 y / 2 := by
  have hx := s16_range x
  have hy := s16_range y
  rw [s16_ssub, s16_sshr_one, s16_sshr_one, sat16_of_range (by omega) (by omega)]

/-- Settles O29: each result is a sum or a difference of two halves. -/
theorem forwardButterflyHalvesNeverClamp : Obligations.ForwardButterflyHalvesNeverClamp := by
  unfold Obligations.ForwardButterflyHalvesNeverClamp
  intro a b w half tr ti y
  have floor (x : Word) : half x = s16 x / 2 := Int.fdiv_eq_ediv_of_nonneg _ (by decide)
  simp only [floor]
  exact ⟨s16_sadd_halves a.1 tr, s16_sadd_halves a.2 ti, s16_ssub_halves a.1 tr,
    s16_ssub_halves a.2 ti⟩

/-! ### Zero in the arithmetic unit -/

@[simp] theorem sadd_zero (a : Word) : sadd a 0#16 = a := by
  have range := s16_range a
  have exact' : exactAdd a 0#16 = s16 a := Int.add_zero _
  rw [sadd, exact', narrow, sat16_of_range range.1 range.2, u16_s16]

@[simp] theorem ssub_zero (a : Word) : ssub a 0#16 = a := by
  have range := s16_range a
  have exact' : exactSub a 0#16 = s16 a := Int.sub_zero _
  rw [ssub, exact', narrow, sat16_of_range range.1 range.2, u16_s16]

@[simp] theorem zero_smul_word (a : Word) : smul 0#16 a = 0#16 := by
  have product : exactMul 0#16 a = 0 := by simp [exactMul, s16, asr]
  rw [smul, product]
  rfl

@[simp] theorem sshr_zero_one : sshr 0#16 1#16 = 0#16 := by decide +kernel

/-! ### A butterfly with a zero lower input -/

theorem rotate_zero (w : Word × Word) : rotate 0 w = 0 := by
  simp [rotate]

theorem butterflyScale_zero (inverse : Bool) : butterflyScale inverse 0 = 0 := by
  cases inverse <;> simp [butterflyScale, halve]

theorem butterfly_zero (inverse : Bool) (a w : Word × Word) :
    butterfly inverse a 0 w = (butterflyScale inverse a, butterflyScale inverse a) := by
  simp [butterfly, rotate_zero, butterflyScale_zero]

/-- What a stage makes of a real value that meets no other: itself when inverse, half of it when
forward. -/
def stageScale (inverse : Bool) (v : Word) : Word := if inverse then v else sshr v 1

theorem stageScale_zero (inverse : Bool) : stageScale inverse 0 = 0 := by
  cases inverse <;> simp [stageScale]

theorem butterflyScale_real (inverse : Bool) (v : Word) :
    butterflyScale inverse (v, 0) = (stageScale inverse v, 0) := by
  cases inverse <;> simp [butterflyScale, stageScale, halve]

/-! ### A block of equal real values through the stages -/

/-- The value `v` in the first `n` places, 0 elsewhere. -/
def blockOf (n : Nat) (v : Word) : Vector (Word × Word) 256 :=
  Vector.ofFn fun i => if i.val < n then (v, 0) else 0

theorem cellD_blockOf {n : Nat} (hn : n ≤ 256) (v : Word) (i : Nat) :
    cellD (blockOf n v) i 0 = if i < n then (v, 0) else 0 := by
  rw [blockOf, cellD_ofFn]
  by_cases inside : i < 256
  · rw [dif_pos inside]
  · rw [dif_neg inside, if_neg (by omega)]

/-- A stage doubles the block: in each pair that reaches into it the lower input is 0. -/
theorem fftStage_blockOf (inverse : Bool) {k : Nat} (hk : k < 8) (v : Word) :
    fftStage inverse (blockOf (2 ^ k) v) (k + 1) =
      blockOf (2 ^ (k + 1)) (stageScale inverse v) := by
  have width : 2 ^ k ≤ 256 := Nat.pow_le_pow_right (by decide : 0 < 2) hk.le
  have half : 2 ^ (k + 1) / 2 = 2 ^ k := by omega
  apply Vector.ext
  intro i hi
  simp only [fftStage, blockOf, Vector.getElem_ofFn, half]
  rw [← blockOf]
  have scaled (c : Prop) [Decidable c] : butterflyScale inverse (if c then (v, 0) else 0) =
      if c then (stageScale inverse v, 0) else 0 := by
    rw [apply_ite (butterflyScale inverse), butterflyScale_real, butterflyScale_zero]
  by_cases upper : i % 2 ^ (k + 1) < 2 ^ k
  · have lower : ¬i + 2 ^ k < 2 ^ k := by omega
    have inside : i < 2 ^ k ↔ i < 2 ^ (k + 1) :=
      ⟨fun h => by omega, fun h => by rwa [Nat.mod_eq_of_lt h] at upper⟩
    rw [if_pos upper, cellD_blockOf width, cellD_blockOf width, if_neg lower, butterfly_zero,
      scaled]
    simp only [inside]
  · have above : 2 ^ k ≤ i := (Nat.le_of_not_lt upper).trans (Nat.mod_le _ _)
    have inside : i - 2 ^ k < 2 ^ k ↔ i < 2 ^ (k + 1) := by omega
    rw [if_neg upper, cellD_blockOf width, cellD_blockOf width, if_neg (Nat.not_lt.mpr above),
      butterfly_zero, scaled]
    simp only [inside]

/-- The stages `1..n` make of the value in place 0 a block of `2 ^ n` values. -/
theorem foldl_fftStage_blockOf (inverse : Bool) {n : Nat} (hn : n ≤ 8) (v : Word) :
    (List.range' 1 n).foldl (fftStage inverse) (blockOf 1 v) =
      blockOf (2 ^ n) ((stageScale inverse)^[n] v) := by
  induction n with
  | zero => rfl
  | succ n ih =>
    rw [List.range'_1_concat, List.foldl_concat, ih (by omega), Nat.add_comm 1 n,
      fftStage_blockOf inverse (by omega), Function.iterate_succ_apply']

/-! ### The transform of an impulse -/

/-- The value `a` in cell 0, 0 elsewhere. -/
def impulseOf (a : Word) : Vector Word 256 := Vector.ofFn fun k => if k.val = 0 then a else 0

theorem impulseOf_zero : impulseOf 0 = Vector.replicate 256 0 := by
  apply Vector.ext
  simp [impulseOf]

/-- Bit reversal leaves place 0, and no other place goes there (R172). -/
theorem bitrev8_eq_zero_iff : ∀ i < 256, bitrev8 i = 0 ↔ i = 0 := by decide +kernel

theorem bitrev8_lt : ∀ i < 256, bitrev8 i < 256 := by decide +kernel

theorem bitrev8_bitrev8 : ∀ i < 256, bitrev8 (bitrev8 i) = i := by decide +kernel

theorem fftLoad_impulseOf (a : Word) :
    fftLoad (impulseOf a) (Vector.replicate 256 0) = blockOf 1 a := by
  apply Vector.ext
  intro i hi
  have place := bitrev8_eq_zero_iff i hi
  have inside := bitrev8_lt i hi
  simp only [fftLoad, blockOf, impulseOf, Vector.getElem_ofFn, cellD_ofFn, cellD_replicate, inside,
    dif_pos, if_true, place, Nat.lt_one_iff]
  split_ifs <;> rfl

/-- An impulse of height `a` in cell 0 becomes the flat spectrum of `a` scaled by eight stages. -/
theorem fftCore_impulseOf (inverse : Bool) (a : Word) :
    fftCore inverse (impulseOf a, Vector.replicate 256 0) =
      (Vector.replicate 256 ((stageScale inverse)^[8] a), Vector.replicate 256 0) := by
  have stages : (List.range' 1 8).foldl (fftStage inverse)
      (fftLoad (impulseOf a) (Vector.replicate 256 0)) =
        blockOf 256 ((stageScale inverse)^[8] a) := by
    rw [fftLoad_impulseOf]
    exact foldl_fftStage_blockOf inverse le_rfl a
  unfold fftCore
  rw [stages]
  refine Prod.ext (Vector.ext fun i hi => ?_) (Vector.ext fun i hi => ?_) <;> simp [blockOf]

theorem iterate_stageScale_inverse (n : Nat) (a : Word) : (stageScale true)^[n] a = a :=
  Function.iterate_fixed rfl n

theorem s16_iterate_stageScale_forward (n : Nat) (a : Word) :
    s16 ((stageScale false)^[n] a) = s16 a / 2 ^ n := by
  induction n with
  | zero => simp
  | succ n ih =>
    rw [Function.iterate_succ_apply', stageScale, if_neg Bool.false_ne_true, s16_sshr_one, ih,
      Int.ediv_ediv_of_nonneg (by positivity), pow_succ]

/-- The transforms keep an all-zero buffer. -/
theorem fftCore_zero (inverse : Bool) :
    fftCore inverse (Vector.replicate 256 0, Vector.replicate 256 0) =
      (Vector.replicate 256 0, Vector.replicate 256 0) := by
  have h := fftCore_impulseOf inverse 0
  rwa [impulseOf_zero, Function.iterate_fixed (stageScale_zero inverse)] at h

/-! ### The commands (R175, R176) -/

/-- What `FFT` and `IFFT` leave. -/
def transformed (inverse : Bool) (s : State) : State :=
  State.done { s with bufs := s.bufs.withSpectrum (fftCore inverse s.bufs.spectrum) }

theorem exec_fft (s : State) : exec .fft s = .next (transformed false s) := rfl

theorem exec_ifft (s : State) : exec .ifft s = .next (transformed true s) := rfl

theorem transformed_spectrum (inverse : Bool) (s : State) :
    (transformed inverse s).bufs.spectrum = fftCore inverse s.bufs.spectrum := rfl

/-- A transform of an impulse in cell 0, cell by cell. -/
theorem transformed_of_impulse (inverse : Bool) {s : State} {a : Word}
    (impulse : ∀ k : Fin 256, s.bufs.spr[k] = (if k.val = 0 then a else 0) ∧ s.bufs.spi[k] = 0)
    (k : Fin 256) :
    (transformed inverse s).bufs.spr[k] = (stageScale inverse)^[8] a ∧
      (transformed inverse s).bufs.spi[k] = 0 := by
  have real : s.bufs.spr = impulseOf a :=
    Vector.ext fun i hi => by simpa [impulseOf] using (impulse ⟨i, hi⟩).1
  have imag : s.bufs.spi = Vector.replicate 256 0 :=
    Vector.ext fun i hi => by simpa using (impulse ⟨i, hi⟩).2
  have after : (transformed inverse s).bufs.spectrum =
      (Vector.replicate 256 ((stageScale inverse)^[8] a), Vector.replicate 256 0) := by
    rw [transformed_spectrum, Buffers.spectrum, real, imag, fftCore_impulseOf]
  obtain ⟨re, im⟩ := Prod.ext_iff.mp after
  exact ⟨(congrArg (·[k]) re).trans (by simp), (congrArg (·[k]) im).trans (by simp)⟩

/-- An all-zero spectral buffer, the impulse of height 0, stays all zero. -/
theorem transformed_of_zero (inverse : Bool) {s : State}
    (zero : ∀ k : Fin 256, s.bufs.spr[k] = 0 ∧ s.bufs.spi[k] = 0) (k : Fin 256) :
    (transformed inverse s).bufs.spr[k] = 0 ∧ (transformed inverse s).bufs.spi[k] = 0 := by
  have h := transformed_of_impulse inverse (a := 0) (fun k => by simpa using zero k) k
  rwa [Function.iterate_fixed (stageScale_zero inverse)] at h

/-- Settles O27: the spectral buffer is all a transform writes, and zero is the impulse of height
0. -/
theorem transformsCompleteAndKeepZero : Obligations.TransformsCompleteAndKeepZero := by
  unfold Obligations.TransformsCompleteAndKeepZero
  intro i transform s
  obtain ⟨inverse, run⟩ : ∃ inverse, exec i s = .next (transformed inverse s) := by
    obtain rfl | rfl := transform
    · exact ⟨false, rfl⟩
    · exact ⟨true, rfl⟩
  refine ⟨_, run, rfl, rfl, rfl, fun sp n notReal notImag => ?_, transformed_of_zero inverse⟩
  exact (touchesOnly_transform inverse).keeps s sp n (by simp [isSpectral, notReal, notImag])

/-- Settles O28: the eight stages scale the impulse eight times, and only the forward ones change
it. -/
theorem fftOfAnImpulseIsFlat : Obligations.FftOfAnImpulseIsFlat := by
  unfold Obligations.FftOfAnImpulseIsFlat
  intro s a impulse
  refine ⟨_, _, exec_fft s, exec_ifft s, fun k => ?_⟩
  obtain ⟨re, im⟩ := transformed_of_impulse false impulse k
  obtain ⟨re', im'⟩ := transformed_of_impulse true impulse k
  rw [iterate_stageScale_inverse] at re'
  refine ⟨?_, im, re', im'⟩
  rw [re, Int.fdiv_eq_ediv_of_nonneg _ (by decide)]
  exact s16_iterate_stageScale_forward 8 a

/-! ### The sine table and bit reversal (R171, R172) -/

theorem sinHalf_le (k : Nat) : sinHalf k ≤ 32767 := by
  have entries : ∀ x ∈ sinQ, x ≤ 32767 := by decide
  unfold sinHalf
  generalize (if k ≤ 64 then k else 128 - k) = i
  by_cases inside : i < sinQ.length
  · rw [List.getD_eq_getElem _ _ inside]
    exact entries _ (List.getElem_mem inside)
  · rw [List.getD_eq_default _ _ (Nat.le_of_not_lt inside)]
    exact Nat.zero_le _

theorem sinVal_range (k : Nat) : -32767 ≤ sinVal k ∧ sinVal k ≤ 32767 := by
  unfold sinVal
  split_ifs
  · have := sinHalf_le (k % 256)
    omega
  · have := sinHalf_le (k % 256 - 128)
    omega

theorem sinVal_add_period (k : Nat) : sinVal (k + 256) = sinVal k := by
  simp only [sinVal, Nat.add_mod_right]

/-- Half a turn on, the other half wave is read at the same place; at the two ends both read 0. -/
theorem sinVal_add_half (k : Nat) : sinVal (k + 128) = -sinVal k := by
  have ends : sinHalf 0 = 0 ∧ sinHalf 128 = 0 := by decide
  unfold sinVal
  obtain first | last | second : k % 256 < 128 ∨ k % 256 = 128 ∨ 128 < k % 256 := by omega
  · have next : (k + 128) % 256 = k % 256 + 128 := by omega
    by_cases h0 : k % 256 = 0
    · simp [next, h0, ends]
    · rw [next, if_neg (by omega), if_pos (by omega), Nat.add_sub_cancel]
  · have next : (k + 128) % 256 = 0 := by omega
    simp [next, last, ends]
  · have next : (k + 128) % 256 = k % 256 - 128 := by omega
    rw [next, if_pos (by omega), if_neg (by omega), neg_neg]

/-- Settles O30. -/
theorem sineTableAndBitReversal : Obligations.SineTableAndBitReversal := by
  unfold Obligations.SineTableAndBitReversal
  refine ⟨fun k => ⟨(sinVal_range k).1, (sinVal_range k).2, sinVal_add_half k, sinVal_add_period k⟩,
    fun i hi => ⟨bitrev8_lt i hi, bitrev8_bitrev8 i hi⟩⟩

/-! ### The oscillator (47_voiced_synth.md R298, R302) -/

theorem s16_sinTab (k : Nat) : s16 (sinTab k) = sinVal k := by
  have range := sinVal_range k
  exact s16_u16 (by omega) (by omega)

/-- Settles O43: the sine is less than 1 in Q15, so the floored product stays within the
amplitude. -/
theorem oscillatorIsBoundedByItsAmplitude : Obligations.OscillatorIsBoundedByItsAmplitude := by
  unfold Obligations.OscillatorIsBoundedByItsAmplitude
  intro a phase (nonneg : 0 ≤ s16 a)
  show -s16 a ≤ s16 (oscillator a phase) ∧ s16 (oscillator a phase) ≤ s16 a
  have amp := s16_range a
  obtain ⟨lo, hi⟩ := sinVal_range (phase.toNat / 2 ^ 24)
  have above := mul_le_mul_of_nonneg_left hi nonneg
  have below := mul_le_mul_of_nonneg_left lo nonneg
  rw [oscillator, s16_smul, s16_sinTab, asr]
  generalize s16 a * sinVal (phase.toNat / 2 ^ 24) = product at above below
  rw [sat16_of_range (by omega) (by omega)]
  omega

end Sys2Proof.Machine
end

section
/-! PROOFS. Counts, bands and bins (44_pitch.md R227 to R230) and the pitch detector (R231 to
R236). -/

namespace Sys2Proof.Machine

/-! ### The derived counts (R227, R229) -/

theorem deriveL_range (w0 : Nat) : 9 ≤ deriveL w0 ∧ deriveL w0 ≤ 56 := by
  unfold deriveL clampNat
  omega

variable {len : Nat}

theorem bandCount_range (lo : 9 ≤ len) : 3 ≤ bandCount len ∧ bandCount len ≤ 12 := by
  unfold bandCount
  split_ifs <;> omega

/-- The first harmonic of every band is there: the bands take three harmonics each. -/
theorem three_mul_lt_of_lt_bandCount {k : Nat} (hk : k < bandCount len) : 3 * k < len := by
  unfold bandCount at hk
  split_ifs at hk <;> omega

/-- The first harmonic of band `k`. -/
theorem band_three_mul_add_one {k count : Nat} (hk : k < count) : band (3 * k + 1) count = k := by
  unfold band
  omega

theorem band_lt {count : Nat} (pos : 0 < count) (l : Nat) : band l count < count := by
  unfold band
  omega

/-- Settles O32: the counts are clamped, and band `k` holds harmonic `3 k + 1`. -/
theorem derivedCountsAndBands : Obligations.DerivedCountsAndBands := by
  unfold Obligations.DerivedCountsAndBands
  intro w0 _
  obtain ⟨lo, hi⟩ := deriveL_range w0
  obtain ⟨few, many⟩ := bandCount_range lo
  refine ⟨lo, hi, few, many, fun k hk => ⟨3 * k + 1, by omega, ?_, band_three_mul_add_one hk⟩⟩
  exact three_mul_lt_of_lt_bandCount hk

/-! ### The bins (R230) -/

/-- The interval of a harmonic ends where the next begins, up to the cap. -/
theorem binHi_eq_min (l w0 : Nat) : binHi l w0 = min 128 (binLo (l + 1) w0) := rfl

/-- Twice the value over twice the divisor is the same ceiling. -/
theorem ceilShift_two_mul (v n : Nat) : ceilShift (2 * v) (n + 1) = ceilShift v n := by
  have pos : 0 < 2 ^ n := by positivity
  unfold ceilShift
  rw [pow_succ', ← Nat.div_div_eq_div_mul]
  congr 1
  omega

theorem binLo_le_cenLo (l w0 : Nat) : binLo l w0 ≤ cenLo l w0 :=
  calc binLo l w0
      = ceilShift (2 * ((2 * l - 1) * w0)) 26 := (ceilShift_two_mul _ 25).symm
    _ ≤ ceilShift ((4 * l - 1) * w0) 26 := by
        rw [← mul_assoc]
        exact ceilShift_le_ceilShift (Nat.mul_le_mul_right w0 (by omega)) 26

/-- A bin has at most one owner. -/
theorem OwnsBin.unique {w0 l l' m : Nat} (owns : OwnsBin w0 l m) (owns' : OwnsBin w0 l' m) :
    l = l' := by
  obtain lt | eq | gt := lt_trichotomy l l'
  · exact absurd owns' (owns.not_of_lt lt)
  · exact eq
  · exact absurd owns (owns'.not_of_lt gt)

/-- Settles O33: the intervals lie end to end and in order. -/
theorem harmonicIntervalsTile : Obligations.HarmonicIntervalsTile := by
  unfold Obligations.HarmonicIntervalsTile
  intro l w0 _
  refine ⟨?_, binLo_le_cenLo l w0, fun l' m _ lo hi lo' hi' => OwnsBin.unique ⟨lo, hi⟩ ⟨lo', hi'⟩⟩
  rw [binHi_eq_min]
  omega

/-! ### Sums and the autocorrelation (R231) -/

section

variable {x : Nat → Int} {p : Nat}

/-- The places a sum runs over. -/
def InSum (lo hi n : Nat) : Prop := n ∈ List.range' lo (hi - lo)

theorem sumInt_congr {lo hi : Nat} {f g : Nat → Int} (h : ∀ n, InSum lo hi n → f n = g n) :
    sumInt lo hi f = sumInt lo hi g :=
  congrArg List.sum (List.map_congr_left h)

theorem sumInt_zero (lo hi : Nat) : (sumInt lo hi fun _ => 0) = 0 := by
  simp [sumInt]

theorem sumInt_sq_nonneg (lo hi : Nat) (f : Nat → Int) : 0 ≤ sumInt lo hi fun n => f n * f n := by
  refine List.sum_nonneg fun y hy => ?_
  obtain ⟨n, -, rfl⟩ := List.mem_map.mp hy
  exact mul_self_nonneg (f n)

/-- A sum of squares is 0 only when every term is. -/
theorem eq_zero_of_sumInt_sq_eq_zero {lo hi : Nat} {f : Nat → Int}
    (zero : (sumInt lo hi fun n => f n * f n) = 0) {n : Nat} (hn : InSum lo hi n) : f n = 0 := by
  refine mul_self_eq_zero.mp (List.all_zero_of_le_zero_le_of_sum_eq_zero (fun y hy => ?_) zero
    (List.mem_map_of_mem hn))
  obtain ⟨n, -, rfl⟩ := List.mem_map.mp hy
  exact mul_self_nonneg (f n)

/-- A lag with a positive autocorrelation has energy in the later samples of the overlap. -/
theorem energyLate_pos (pos : 0 < autoCorr x p) : 0 < energyLate x p := by
  refine (sumInt_sq_nonneg p 160 x).lt_of_ne fun zero => pos.ne ?_
  have silent (n : Nat) (hn : InSum p 160 n) : x n * x (n - p) = 0 := by
    rw [eq_zero_of_sumInt_sq_eq_zero zero.symm hn, zero_mul]
  rw [autoCorr, sumInt_congr silent, sumInt_zero]

/-- It has energy in the earlier samples, too. -/
theorem energyEarly_pos (pos : 0 < autoCorr x p) : 0 < energyEarly x p := by
  refine (sumInt_sq_nonneg p 160 fun n => x (n - p)).lt_of_ne fun zero => pos.ne ?_
  have silent (n : Nat) (hn : InSum p 160 n) : x n * x (n - p) = 0 := by
    rw [eq_zero_of_sumInt_sq_eq_zero (f := fun n => x (n - p)) zero.symm hn, mul_zero]
  rw [autoCorr, sumInt_congr silent, sumInt_zero]

end

/-! ### The coarse search (R232) -/

/-- `r(p)^2`, the numerator of a lag's normalized value. -/
def lagNum (x : Nat → Int) (p : Nat) : Int := autoCorr x p ^ 2

theorem lagNum_eq_mul (x : Nat → Int) (p : Nat) : lagNum x p = autoCorr x p * autoCorr x p := sq _

/-- `e0(p) e1(p)`, its denominator. -/
def lagDen (x : Nat → Int) (p : Nat) : Int := energyLate x p * energyEarly x p

/-- The normalized value of lag `q` is below that of lag `p`, by cross multiplication. -/
def LagBelow (x : Nat → Int) (q p : Nat) : Prop := lagNum x q * lagDen x p < lagNum x p * lagDen x q

section

variable {x : Nat → Int} {lo n p q b : Nat}

theorem lagDen_pos (pos : 0 < autoCorr x p) : 0 < lagDen x p :=
  mul_pos (energyLate_pos pos) (energyEarly_pos pos)

/-- Cross multiplication is transitive where the denominators are positive. -/
theorem LagBelow.of_not_below_of_below {x : Nat → Int} {q b p : Nat} (posq : 0 < autoCorr x q)
    (posb : 0 < autoCorr x b) (posp : 0 < autoCorr x p) (notAbove : ¬LagBelow x b q)
    (below : LagBelow x b p) : LagBelow x q p := by
  have dq := lagDen_pos posq
  have db := lagDen_pos posb
  have dp := lagDen_pos posp
  refine lt_of_mul_lt_mul_right ?_ db.le
  calc lagNum x q * lagDen x p * lagDen x b
      = lagNum x q * lagDen x b * lagDen x p := mul_right_comm _ _ _
    _ ≤ lagNum x b * lagDen x q * lagDen x p :=
        mul_le_mul_of_nonneg_right (not_lt.mp notAbove) dp.le
    _ = lagNum x b * lagDen x p * lagDen x q := mul_right_comm _ _ _
    _ < lagNum x p * lagDen x b * lagDen x q := mul_lt_mul_of_pos_right below dq
    _ = lagNum x p * lagDen x q * lagDen x b := mul_right_comm _ _ _

/-- Lag `b` is the smallest of the lags `lo, ..., lo + n - 1` of greatest normalized value, lags
with `r <= 0` not counting. -/
structure IsFirstBest (x : Nat → Int) (lo n b : Nat) : Prop where
  lower : lo ≤ b
  upper : b < lo + n
  pos : 0 < autoCorr x b
  best : ∀ p, lo ≤ p → p < lo + n → 0 < autoCorr x p → ¬LagBelow x b p
  first : ∀ p, lo ≤ p → p < b → 0 < autoCorr x p → LagBelow x p b

/-- A lag with `r <= 0` changes nothing. -/
theorem IsFirstBest.succ_of_not_pos (h : IsFirstBest x lo n b) (notPos : ¬0 < autoCorr x (lo + n)) :
    IsFirstBest x lo (n + 1) b where
  lower := h.lower
  upper := Nat.lt_succ_of_lt h.upper
  pos := h.pos
  best p lower upper posp := by
    obtain before | rfl := Nat.lt_succ_iff_lt_or_eq.mp upper
    · exact h.best p lower before posp
    · exact absurd posp notPos
  first := h.first

/-- A lag whose value is not above the best leaves it, as on a tie. -/
theorem IsFirstBest.succ_of_not_below (h : IsFirstBest x lo n b)
    (notBelow : ¬LagBelow x b (lo + n)) : IsFirstBest x lo (n + 1) b where
  lower := h.lower
  upper := Nat.lt_succ_of_lt h.upper
  pos := h.pos
  best p lower upper posp := by
    obtain before | rfl := Nat.lt_succ_iff_lt_or_eq.mp upper
    · exact h.best p lower before posp
    · exact notBelow
  first := h.first

/-- A lag whose value is above the best is above every lag before it. -/
theorem IsFirstBest.lagBelow_next (h : IsFirstBest x lo n b) (pos : 0 < autoCorr x (lo + n))
    (below : LagBelow x b (lo + n)) {p : Nat} (lower : lo ≤ p) (before : p < lo + n)
    (posp : 0 < autoCorr x p) : LagBelow x p (lo + n) :=
  LagBelow.of_not_below_of_below posp h.pos pos (h.best p lower before posp) below

/-- A lag whose value is above the best takes over. -/
theorem IsFirstBest.succ_of_below (h : IsFirstBest x lo n b) (pos : 0 < autoCorr x (lo + n))
    (below : LagBelow x b (lo + n)) : IsFirstBest x lo (n + 1) (lo + n) where
  lower := Nat.le_add_right lo n
  upper := Nat.lt_succ_self _
  pos := pos
  best p lower upper posp := by
    obtain before | rfl := Nat.lt_succ_iff_lt_or_eq.mp upper
    · exact (h.lagBelow_next pos below lower before posp).not_gt
    · exact lt_irrefl _
  first p lower before posp := h.lagBelow_next pos below lower before posp

/-- The first lag with `r > 0` is the best so far. -/
theorem isFirstBest_of_unseen (unseen : ∀ p, lo ≤ p → p < lo + n → ¬0 < autoCorr x p)
    (pos : 0 < autoCorr x (lo + n)) : IsFirstBest x lo (n + 1) (lo + n) where
  lower := Nat.le_add_right lo n
  upper := Nat.lt_succ_self _
  pos := pos
  best p lower upper posp := by
    obtain before | rfl := Nat.lt_succ_iff_lt_or_eq.mp upper
    · exact absurd posp (unseen p lower before)
    · exact lt_irrefl _
  first p lower before posp := absurd posp (unseen p lower before)

/-- The best of the lags `lo, ..., lo + n - 1`: the fold inside `coarseSearch`. -/
def coarseAmong (x : Nat → Int) (lo n : Nat) : Option (Nat × Int × Int) :=
  (List.range' lo n).foldl (coarseStep x) none

theorem coarseAmong_succ (x : Nat → Int) (lo n : Nat) :
    coarseAmong x lo (n + 1) = coarseStep x (coarseAmong x lo n) (lo + n) := by
  rw [coarseAmong, List.range'_1_concat, List.foldl_concat, coarseAmong]

theorem coarseStep_of_not_pos (best : Option (Nat × Int × Int)) (notPos : ¬0 < autoCorr x p) :
    coarseStep x best p = best :=
  if_pos (not_lt.mp notPos)

theorem coarseStep_none (pos : 0 < autoCorr x p) :
    coarseStep x none p = some (p, lagNum x p, lagDen x p) := by
  rw [lagNum_eq_mul]
  exact if_neg (not_le.mpr pos)

theorem coarseStep_some_of_below (pos : 0 < autoCorr x p) (below : LagBelow x b p) :
    coarseStep x (some (b, lagNum x b, lagDen x b)) p = some (p, lagNum x p, lagDen x p) := by
  rw [LagBelow, lagNum_eq_mul x p] at below
  rw [lagNum_eq_mul x p]
  exact (if_neg (not_le.mpr pos)).trans (if_pos below)

theorem coarseStep_some_of_not_below (pos : 0 < autoCorr x p) (notBelow : ¬LagBelow x b p) :
    coarseStep x (some (b, lagNum x b, lagDen x b)) p = some (b, lagNum x b, lagDen x b) := by
  rw [LagBelow, lagNum_eq_mul x p] at notBelow
  exact (if_neg (not_le.mpr pos)).trans (if_neg notBelow)

/-- The search has met no lag with `r > 0`, or it holds the first best of those it has met. -/
theorem coarseAmong_cases (x : Nat → Int) (lo n : Nat) :
    (coarseAmong x lo n = none ∧ ∀ p, lo ≤ p → p < lo + n → ¬0 < autoCorr x p) ∨
    ∃ b, coarseAmong x lo n = some (b, lagNum x b, lagDen x b) ∧ IsFirstBest x lo n b := by
  induction n with
  | zero => exact .inl ⟨rfl, fun p lower upper => absurd upper (Nat.not_lt.mpr lower)⟩
  | succ n ih =>
    rw [coarseAmong_succ]
    by_cases pos : 0 < autoCorr x (lo + n)
    · right
      obtain ⟨found, unseen⟩ | ⟨b, found, best⟩ := ih
      · exact ⟨lo + n, by rw [found, coarseStep_none pos], isFirstBest_of_unseen unseen pos⟩
      · by_cases below : LagBelow x b (lo + n)
        · exact ⟨lo + n, by rw [found, coarseStep_some_of_below pos below],
            best.succ_of_below pos below⟩
        · exact ⟨b, by rw [found, coarseStep_some_of_not_below pos below],
            best.succ_of_not_below below⟩
    · rw [coarseStep_of_not_pos _ pos]
      refine ih.imp (fun ⟨found, unseen⟩ => ⟨found, fun p lower upper => ?_⟩)
        fun ⟨b, found, best⟩ => ⟨b, found, best.succ_of_not_pos pos⟩
      obtain before | rfl := Nat.lt_succ_iff_lt_or_eq.mp upper
      · exact unseen p lower before
      · exact pos

end

end Sys2Proof.Machine

namespace Sys2Proof

/-- The eleven checks of a well-formed `Cfg`, side by side. -/
theorem Cfg.checks_of_wf {c : Cfg} (wf : c.wf = true) :
    c.pitchRangeOk = true ∧ c.resetPairOk = true ∧ c.lagRangeOk = true ∧ c.thresholdsOk = true ∧
      c.ampBitsOk = true ∧ c.quantTablesOk = true ∧ c.predOk = true ∧ c.enhOk = true ∧
      c.noiseOk = true ∧ c.uvShiftOk = true ∧ c.windowsOk = true := by
  simpa only [Cfg.wf, Bool.and_eq_true, and_assoc] using wf

theorem Cfg.lagRange_of_wf {c : Cfg} (wf : c.wf = true) :
    1 ≤ c.lagMin ∧ c.lagMin ≤ c.lagMax ∧ c.lagMax ≤ 159 := by
  obtain ⟨-, -, range, -⟩ := Cfg.checks_of_wf wf
  simpa only [Cfg.lagRangeOk, Bool.and_eq_true, decide_eq_true_eq, and_assoc] using range

end Sys2Proof

namespace Sys2Proof.Machine

theorem coarseSearch_eq (c : Cfg) (x : Nat → Int) :
    coarseSearch c x = coarseAmong x c.lagMin (c.lagMax - c.lagMin + 1) := rfl

/-- Settles O35, by the invariant of the search over the whole lag range. -/
theorem coarseSearchIsTheFirstBest : Obligations.CoarseSearchIsTheFirstBest := by
  unfold Obligations.CoarseSearchIsTheFirstBest
  intro c wf x
  obtain ⟨-, nonempty, -⟩ := Cfg.lagRange_of_wf wf
  have range (p : Nat) : p < c.lagMin + (c.lagMax - c.lagMin + 1) ↔ p ≤ c.lagMax := by omega
  obtain ⟨found, unseen⟩ | ⟨b, found, best⟩ :=
    coarseAmong_cases x c.lagMin (c.lagMax - c.lagMin + 1) <;> rw [coarseSearch_eq, found]
  · refine ⟨iff_of_true rfl fun p lower upper => ?_, nofun⟩
    exact not_lt.mp (unseen p lower ((range p).mpr upper))
  · refine ⟨iff_of_false nofun fun silent => ?_, ?_⟩
    · exact (silent b best.lower ((range b).mp best.upper)).not_gt best.pos
    · rintro _ ⟨rfl⟩
      refine ⟨best.lower, (range b).mp best.upper, best.pos, fun p lower upper pos => ⟨?_, ?_⟩⟩
      · exact not_lt.mp (best.best p lower ((range p).mpr upper) pos)
      · exact fun before => best.first p lower before pos

/-- A frame of zeros has no pitch candidate. -/
theorem coarseSearch_silence (c : Cfg) : coarseSearch c (fun _ => 0) = none := by
  have silent (p : Nat) : autoCorr (fun _ => 0) p = 0 := sumInt_zero p 160
  obtain ⟨found, -⟩ | ⟨b, -, best⟩ :=
    coarseAmong_cases (fun _ => 0) c.lagMin (c.lagMax - c.lagMin + 1)
  · exact found
  · exact absurd best.pos (silent b).not_gt

/-! ### From the raw estimate to the pitch index (R233 to R236) -/

/-- The median of three values of which two are equal is that value. -/
theorem median3_same (a b : Nat) : median3 a b b = b := by
  unfold median3
  omega

section

variable {c : Cfg} (ordered : c.p2Min ≤ c.p2Max) (x : Nat → Int)

include ordered

/-- A period in half samples clamped into the range gives an index in range. -/
theorem clampNat_period_sub_le (v : Nat) : clampNat v c.p2Min c.p2Max - c.p2Min ≤ c.b0Max := by
  unfold clampNat Cfg.b0Max
  omega

theorem pitchDetect_fst_le (pp1 pp2 : Nat) : (pitchDetect c x pp1 pp2).1 ≤ c.b0Max :=
  clampNat_period_sub_le ordered _

theorem pitchDetect_snd_le (pp1 pp2 : Nat) : (pitchDetect c x pp1 pp2).2 ≤ c.b0Max := by
  show (clampInt (rawPitch c x pp1) c.p2Min c.p2Max).toNat - c.p2Min ≤ c.p2Max - c.p2Min
  unfold clampInt
  omega

/-- Two equal history values outvote the raw estimate. -/
theorem pitchDetect_fst_of_same {pp : Nat} (hpp : pp ≤ c.b0Max) :
    (pitchDetect c x pp pp).1 = pp := by
  show clampNat (median3 _ (pp + c.p2Min) (pp + c.p2Min)) c.p2Min c.p2Max - c.p2Min = pp
  rw [median3_same]
  unfold clampNat
  unfold Cfg.b0Max at hpp
  omega

/-- Without a candidate the history value is the previous one (R234). -/
theorem pitchDetect_snd_of_no_candidate {pp1 : Nat} (hpp : pp1 ≤ c.b0Max) (pp2 : Nat)
    (missing : coarseSearch c x = none) : (pitchDetect c x pp1 pp2).2 = pp1 := by
  have raw : rawPitch c x pp1 = (pp1 + c.p2Min : Nat) := by rw [rawPitch, missing]
  show (clampInt (rawPitch c x pp1) c.p2Min c.p2Max).toNat - c.p2Min = pp1
  rw [raw]
  unfold clampInt
  unfold Cfg.b0Max at hpp
  omega

end

end Sys2Proof.Machine
end

section
/-! PROOFS. The amplitude path (46_amplitude.md R265 to R284): the prediction is an interpolation
and a mean of bounded logarithms, the bit string a number in mixed radix, and the enhancement a
clamped gain. -/

namespace Sys2Proof

theorem Cfg.predCoef_of_wf {c : Cfg} (wf : c.wf = true) : c.predCoef.toNat ≤ 32767 := by
  obtain ⟨-, -, -, -, -, -, coef, -⟩ := Cfg.checks_of_wf wf
  simpa only [Cfg.predOk, nonNegWord, decide_eq_true_eq] using coef

end Sys2Proof

namespace Sys2Proof.Machine

/-- A word below 2^15 reads alike signed and unsigned. -/
theorem s16_eq_toNat {w : Word} (h : w.toNat ≤ 32767) : s16 w = w.toNat :=
  BitVec.toInt_eq_toNat_of_lt (by omega)

/-! ### The prediction (R267) -/

theorem prevLog_range (mp : Vector Word 56) (lp i : Nat) :
    0 ≤ prevLog mp lp i ∧ prevLog mp lp i ≤ 3839 := by
  unfold prevLog
  split_ifs
  · decide
  · have amp : ampVal (harmD mp (clampNat i 1 lp) 0) ≤ 32767 := by
      have := s16_range (harmD mp (clampNat i 1 lp) 0)
      unfold ampVal
      omega
    have := log2Q_le amp
    omega

/-- A fraction `f / 256` of a step `d` lies between no step and the whole one. -/
theorem asr_mul_range {d f : Int} (nonneg : 0 ≤ f) (le : f ≤ 256) :
    min 0 d ≤ asr (d * f) 8 ∧ asr (d * f) 8 ≤ max 0 d := by
  unfold asr
  obtain up | down := le_total 0 d
  · have lo : 0 ≤ d * f := mul_nonneg up nonneg
    have hi : d * f ≤ d * 256 := mul_le_mul_of_nonneg_left le up
    omega
  · have lo : d * 256 ≤ d * f := mul_le_mul_of_nonpos_left le down
    have hi : d * f ≤ 0 := mul_nonpos_of_nonpos_of_nonneg down nonneg
    omega

theorem interpLog_range (mp : Vector Word 56) (lp len l : Nat) :
    0 ≤ interpLog mp lp len l ∧ interpLog mp lp len l ≤ 3839 := by
  have start := prevLog_range mp lp (l * lp / len)
  have stop := prevLog_range mp lp (l * lp / len + 1)
  have fraction : l * lp % len * 256 / len ≤ 256 := by
    obtain rfl | pos := Nat.eq_zero_or_pos len
    · simp
    · exact Nat.div_le_of_le_mul (Nat.mul_le_mul_right _ (Nat.mod_lt _ pos).le)
  have step := asr_mul_range (d := prevLog mp lp (l * lp / len + 1) - prevLog mp lp (l * lp / len))
    (Int.natCast_nonneg _) (Int.ofNat_le.mpr fraction)
  simp only [interpLog]
  omega

/-- The floored mean of values in `0..b` is in `0..b`. -/
theorem mean_range {xs : List Int} {b : Int} (hb : 0 ≤ b) (h : ∀ x ∈ xs, 0 ≤ x ∧ x ≤ b) :
    0 ≤ xs.sum / (xs.length : Int) ∧ xs.sum / (xs.length : Int) ≤ b := by
  have lo : 0 ≤ xs.sum := List.sum_nonneg fun x hx => (h x hx).1
  have hi : xs.sum ≤ xs.length * b := by
    simpa using List.sum_le_card_nsmul xs b fun x hx => (h x hx).2
  refine ⟨Int.ediv_nonneg lo (Int.natCast_nonneg _), ?_⟩
  obtain zero | pos := Nat.eq_zero_or_pos xs.length
  · simpa [zero] using hb
  · exact Int.ediv_le_of_le_mul (by omega) (mul_comm b _ ▸ hi)

/-- A Q15 factor in 0..1 does not take a value out of `-b..b`. -/
theorem asr_mul_coef_range {coef d b : Int} (nonneg : 0 ≤ coef) (le : coef ≤ 32767) (lo : -b ≤ d)
    (hi : d ≤ b) : -b ≤ asr (coef * d) 15 ∧ asr (coef * d) 15 ≤ b := by
  have below : coef * -b ≤ coef * d := mul_le_mul_of_nonneg_left lo nonneg
  have above : coef * d ≤ coef * b := mul_le_mul_of_nonneg_left hi nonneg
  have hb : coef * b ≤ 32767 * b := mul_le_mul_of_nonneg_right le (by omega)
  rw [mul_neg] at below
  unfold asr
  omega

theorem length_predict (c : Cfg) (mp : Vector Word 56) (lp len : Nat) :
    (predict c mp lp len).length = len := by
  simp [predict]

/-- Settles O38: the interpolated logarithms and their mean lie in 0..3839, so each difference is in
-3839..3839, and the coefficient keeps it there. -/
theorem predictionIsBounded : Obligations.PredictionIsBounded := by
  unfold Obligations.PredictionIsBounded
  intro c wf mp lp len
  refine ⟨length_predict c mp lp len, fun x hx => ?_⟩
  have logs : ∀ y ∈ (List.range' 1 len).map (interpLog mp lp len), 0 ≤ y ∧ y ≤ 3839 := by
    intro y hy
    obtain ⟨l, -, rfl⟩ := List.mem_map.mp hy
    exact interpLog_range mp lp len l
  have mean := mean_range (by decide) logs
  rw [List.length_map, List.length_range'] at mean
  have coef : s16 c.predCoef = c.predCoef.toNat := s16_eq_toNat (Cfg.predCoef_of_wf wf)
  have small := Cfg.predCoef_of_wf wf
  obtain ⟨y, hy, rfl⟩ := List.mem_map.mp hx
  have range := logs y hy
  exact asr_mul_coef_range (by omega) (by omega) (by omega) (by omega)

/-! ### The amplitude bit string (R270 to R272) -/

/-- The widths of the bands below `n` together. -/
def widthsBelow (c : Cfg) (v : Word) (n : Nat) : Nat := ((List.range n).map (indexBits c v)).sum

theorem bandPos_eq (c : Cfg) (v : Word) (kk : Nat) :
    bandPos c v kk = 52 - widthsBelow c v (kk + 1) := rfl

theorem widthsBelow_succ (c : Cfg) (v : Word) (n : Nat) :
    widthsBelow c v (n + 1) = widthsBelow c v n + indexBits c v n := by
  simp [widthsBelow, List.range_succ]

theorem widthsBelow_mono (c : Cfg) (v : Word) : Monotone (widthsBelow c v) :=
  monotone_nat_of_le_succ fun n => by rw [widthsBelow_succ]; omega

theorem indexBits_le (v : Word) (kk : Nat) : indexBits Config.cfg v kk ≤ 4 := by
  obtain ⟨-, lt, le⟩ := Config.ampBits
  unfold indexBits
  split_ifs <;> omega

/-- Twelve bands take at most 48 of the 52 bits. -/
theorem widthsBelow_le (v : Word) {n : Nat} (hn : n ≤ 12) : widthsBelow Config.cfg v n ≤ 52 := by
  have each (n : Nat) : widthsBelow Config.cfg v n ≤ 4 * n := by
    induction n with
    | zero => exact Nat.le_refl 0
    | succ n ih =>
      have := indexBits_le v n
      rw [widthsBelow_succ]
      omega
  have := each n
  omega

theorem amplitudeString_nil (c : Cfg) (v : Word) : amplitudeString c v [] = 0 := rfl

theorem amplitudeString_concat (c : Cfg) (v : Word) (idx : List Nat) (i : Nat) :
    amplitudeString c v (idx ++ [i]) =
      amplitudeString c v idx + i * 2 ^ bandPos c v idx.length := by
  simp [amplitudeString, List.mapIdx_append]

/-- The string `s` carries the band indices `idx`, and nothing below the last of them. -/
structure Carries (c : Cfg) (v : Word) (s : Nat) (idx : List Nat) : Prop where
  lt : s < 2 ^ 52
  low : 2 ^ (52 - widthsBelow c v idx.length) ∣ s
  read : ∀ kk < idx.length, s / 2 ^ bandPos c v kk % 2 ^ indexBits c v kk = idx.getD kk 0

/-- What is added below bit `n` is not seen from bit `n` up. -/
theorem div_two_pow_of_add_low {n pos r t : Nat} (hr : r < 2 ^ n) (hn : n ≤ pos) :
    (2 ^ n * t + r) / 2 ^ pos = 2 ^ n * t / 2 ^ pos := by
  obtain ⟨e, rfl⟩ := Nat.exists_eq_add_of_le hn
  have cut : (2 ^ n * t + r) / 2 ^ n = 2 ^ n * t / 2 ^ n := by
    rw [Nat.mul_add_div (by positivity), Nat.div_eq_of_lt hr, Nat.add_zero,
      Nat.mul_div_cancel_left _ (by positivity)]
  rw [pow_add, ← Nat.div_div_eq_div_mul, ← Nat.div_div_eq_div_mul, cut]

/-- One more index takes the bits below the last one and disturbs none above. -/
theorem Carries.concat {c : Cfg} {v : Word} {s i : Nat} {idx : List Nat} (h : Carries c v s idx)
    (room : widthsBelow c v (idx.length + 1) ≤ 52) (fits : i < 2 ^ indexBits c v idx.length) :
    Carries c v (s + i * 2 ^ bandPos c v idx.length) (idx ++ [i]) := by
  obtain ⟨t, rfl⟩ := h.low
  have start : bandPos c v idx.length + indexBits c v idx.length =
      52 - widthsBelow c v idx.length := by
    rw [bandPos_eq]
    rw [widthsBelow_succ] at room ⊢
    omega
  have below : i * 2 ^ bandPos c v idx.length < 2 ^ (52 - widthsBelow c v idx.length) := by
    rw [← start, pow_add, mul_comm]
    exact Nat.mul_lt_mul_of_pos_left fits (by positivity)
  refine ⟨?lt, ?low, fun kk hkk => ?read⟩
  case lt =>
    have whole : 2 ^ 52 =
        2 ^ (52 - widthsBelow c v idx.length) * 2 ^ widthsBelow c v idx.length := by
      rw [← pow_add]
      congr 1
      rw [widthsBelow_succ] at room
      omega
    have ht : t < 2 ^ widthsBelow c v idx.length :=
      Nat.lt_of_mul_lt_mul_left (whole ▸ h.lt)
    calc 2 ^ (52 - widthsBelow c v idx.length) * t + i * 2 ^ bandPos c v idx.length
        < 2 ^ (52 - widthsBelow c v idx.length) * (t + 1) := Nat.add_lt_add_left below _
      _ ≤ 2 ^ (52 - widthsBelow c v idx.length) * 2 ^ widthsBelow c v idx.length :=
          Nat.mul_le_mul_left _ ht
      _ = 2 ^ 52 := whole.symm
  case low =>
    rw [List.length_append, List.length_singleton, ← bandPos_eq, ← start, pow_add, mul_assoc]
    exact (Nat.dvd_mul_right _ _).add (Nat.dvd_mul_left _ _)
  case read =>
    rw [List.length_append, List.length_singleton, Nat.lt_succ_iff_lt_or_eq] at hkk
    obtain earlier | rfl := hkk
    · have above : 52 - widthsBelow c v idx.length ≤ bandPos c v kk :=
        Nat.sub_le_sub_left (widthsBelow_mono c v earlier) 52
      rw [div_two_pow_of_add_low below above, h.read kk earlier, List.getD_append _ _ _ _ earlier]
    · have parts : 2 ^ (52 - widthsBelow c v idx.length) * t + i * 2 ^ bandPos c v idx.length =
          2 ^ bandPos c v idx.length * (2 ^ indexBits c v idx.length * t + i) := by
        rw [← start, pow_add]
        ring
      rw [parts, Nat.mul_div_cancel_left _ (by positivity), Nat.mul_add_mod, Nat.mod_eq_of_lt fits,
        List.getD_append_right _ _ _ _ le_rfl, Nat.sub_self, List.getD_cons_zero]

/-- The string of the band indices carries them. -/
theorem carries_amplitudeString (v : Word) {idx : List Nat} (len : idx.length ≤ 12)
    (fits : ∀ kk < idx.length, idx.getD kk 0 < 2 ^ indexBits Config.cfg v kk) :
    Carries Config.cfg v (amplitudeString Config.cfg v idx) idx := by
  induction idx using List.reverseRecOn with
  | nil =>
    rw [amplitudeString_nil]
    exact ⟨by norm_num, Nat.dvd_zero _, nofun⟩
  | append_singleton idx i ih =>
    rw [List.length_append, List.length_singleton] at len fits
    rw [amplitudeString_concat]
    refine (ih (by omega) fun kk hkk => ?_).concat (widthsBelow_le v len) ?_
    · have h := fits kk (by omega)
      rwa [List.getD_append _ _ _ _ hkk] at h
    · simpa using fits idx.length (by omega)

theorem toNat_frameVector (xs : List Nat) {f : Nat} (hf : f < 8) :
    (cellD (frameVector xs) f 0).toNat = xs.getD f 0 % 2 ^ 16 := by
  rw [frameVector, cellD_ofFn, dif_pos hf, BitVec.toNat_ofNat]

/-- The five fields put together again are the string they were cut from (R271, R272). -/
theorem frameString_frameVector {s : Nat} (hs : s < 2 ^ 52) {head : List Nat}
    (len : head.length = 3) :
    frameString (frameVector (head ++ stringFields s)) = s := by
  obtain ⟨a, b, c, rfl⟩ := List.length_eq_three.mp len
  simp only [frameString, toNat_frameVector _ (show 3 < 8 by decide),
    toNat_frameVector _ (show 4 < 8 by decide), toNat_frameVector _ (show 5 < 8 by decide),
    toNat_frameVector _ (show 6 < 8 by decide), toNat_frameVector _ (show 7 < 8 by decide),
    stringFields, List.cons_append, List.nil_append, List.getD_cons_succ, List.getD_cons_zero]
  omega

/-- Settles O40. -/
theorem amplitudeStringRoundTrip : Obligations.AmplitudeStringRoundTrip := by
  unfold Obligations.AmplitudeStringRoundTrip
  intro v idx len fits s
  have carries := carries_amplitudeString v len fits
  exact ⟨carries.lt, carries.read, fun head three => frameString_frameVector carries.lt three⟩

/-! ### The enhancement (R283, R284) -/

/-- Every weight lies between the two bounds, around 1 in Q14. -/
theorem enhanceWeight_range (mq : List Nat) (len l : Nat) :
    Config.cfg.enhMin.toNat ≤ enhanceWeight Config.cfg mq len l ∧
      enhanceWeight Config.cfg mq len l ≤ Config.cfg.enhMax.toNat := by
  obtain ⟨-, min_le, le_max, -⟩ := Config.enh
  simp only [enhanceWeight, clampNat]
  split_ifs <;> omega

/-- An amplitude equal to its local mean is left as it is. -/
theorem enhanceAmp_of_localMean_eq {mq : List Nat} {len l : Nat} (small : quantAmp mq l ≤ 32767)
    (flat : localMean mq len l = quantAmp mq l) :
    enhanceAmp Config.cfg mq len l = quantAmp mq l := by
  obtain ⟨-, min_le, le_max, -⟩ := Config.enh
  have weight : enhanceWeight Config.cfg mq len l = 16384 := by
    simp only [enhanceWeight, clampNat, flat]
    split_ifs with silent
    · rfl
    · rw [Nat.mul_div_cancel_left _ (Nat.pos_of_ne_zero silent)]
      omega
  rw [enhanceAmp, weight]
  omega

theorem quantAmp_replicate {len c l : Nat} (pos : 1 ≤ l) (le : l ≤ len) :
    quantAmp (List.replicate len c) l = c :=
  List.getD_replicate _ (by omega)

/-- In a flat spectrum every harmonic is enhanced to what it is. -/
theorem enhanceAmp_replicate {len c l : Nat} (small : c ≤ 32767) (pos : 1 ≤ l) (le : l ≤ len) :
    enhanceAmp Config.cfg (List.replicate len c) len l = c := by
  have here := quantAmp_replicate (c := c) pos le
  have mean : localMean (List.replicate len c) len l = c := by
    rw [localMean, here, quantAmp_replicate (by omega) (by omega),
      quantAmp_replicate (by omega) (by omega)]
    omega
  rw [enhanceAmp_of_localMean_eq (here.trans_le small) (mean.trans here.symm), here]

/-- Settles O41. -/
theorem enhancementIsBounded : Obligations.EnhancementIsBounded := by
  unfold Obligations.EnhancementIsBounded
  refine ⟨fun mq len l small => ?_, fun len c l small pos le => enhanceAmp_replicate small pos le⟩
  obtain ⟨-, min_le, -, -⟩ := Config.enh
  obtain ⟨lo, hi⟩ := enhanceWeight_range mq len l
  have least : quantAmp mq l * Config.cfg.enhMin.toNat ≤ 32767 * 16384 :=
    Nat.mul_le_mul small min_le
  have below := Nat.mul_le_mul_left (quantAmp mq l) lo
  have above := Nat.mul_le_mul_left (quantAmp mq l) hi
  unfold enhanceAmp
  omega

/-! ### The registers `M[1..56]` -/

theorem enhanceAmp_le (c : Cfg) (mq : List Nat) (len l : Nat) : enhanceAmp c mq len l ≤ 32767 :=
  Nat.min_le_left _ _

theorem toNat_enhance (c : Cfg) (mq : List Nat) (len : Nat) (i : Fin 56) :
    ((enhance c mq len)[i]).toNat = if i.val + 1 ≤ len then enhanceAmp c mq len (i + 1) else 0 := by
  have small : enhanceAmp c mq len (i + 1) < 2 ^ 16 :=
    (enhanceAmp_le c mq len (i + 1)).trans_lt (by norm_num)
  unfold enhance
  rw [Fin.getElem_fin, Vector.getElem_ofFn]
  split_ifs
  · exact Nat.mod_eq_of_lt small
  · rfl

theorem enhance_le (c : Cfg) (mq : List Nat) (len : Nat) (i : Fin 56) :
    ((enhance c mq len)[i]).toNat ≤ 32767 := by
  rw [toNat_enhance]
  split_ifs
  · exact enhanceAmp_le ..
  · exact Nat.zero_le _

theorem enhance_above (c : Cfg) (mq : List Nat) {len : Nat} {i : Fin 56} (above : len < i.val + 1) :
    (enhance c mq len)[i] = 0 := by
  apply BitVec.eq_of_toNat_eq
  rw [toNat_enhance, if_neg (Nat.not_le.mpr above)]
  rfl

end Sys2Proof.Machine
end

section
/-! PROOFS. The parameter decode (49_frame_commands.md R335) and the encode path (45_voicing.md
R250 to R255, 49_frame_commands.md R332): what the parameter decode leaves in each register from
any frame vector, and the frame vector the analysis stages form. -/

namespace Sys2Proof

theorem Config.two_le_p2Min : 2 ≤ Config.cfg.p2Min := Config.pitchRange.1

theorem Config.p2Min_le_p2Max : Config.cfg.p2Min ≤ Config.cfg.p2Max := by
  obtain ⟨-, ordered, -⟩ := Config.pitchRange
  exact ordered

theorem Config.b0Max_le : Config.cfg.b0Max ≤ 4095 := by
  obtain ⟨-, -, -, width⟩ := Config.pitchRange
  exact width

theorem Config.gainN_le : Config.cfg.gainN ≤ 4096 := by
  obtain ⟨-, le, -⟩ := Config.quantTables
  exact le

end Sys2Proof

namespace Sys2Proof.Machine

/-! ### The registers of the parameter decode, as numbers -/

/-- The harmonic count of a frame vector. -/
def frameLen (c : Cfg) (fv : Vector Word 8) : Nat := deriveL (w0Tab c.p2Min (frameIndex c fv))

/-- The band count of a frame vector. -/
def frameBands (c : Cfg) (fv : Vector Word 8) : Nat := bandCount (frameLen c fv)

theorem frameIndex_le (c : Cfg) (fv : Vector Word 8) : frameIndex c fv ≤ c.b0Max :=
  Nat.min_le_right _ _

theorem frameLen_range (c : Cfg) (fv : Vector Word 8) : 9 ≤ frameLen c fv ∧ frameLen c fv ≤ 56 :=
  deriveL_range _

theorem frameBands_range (c : Cfg) (fv : Vector Word 8) :
    3 ≤ frameBands c fv ∧ frameBands c fv ≤ 12 :=
  bandCount_range (frameLen_range c fv).1

section

variable (p : Psrf) (fv : Vector Word 8)

theorem toNat_paramDecode_pc :
    (p.paramDecode Config.cfg fv).pc.toNat = frameIndex Config.cfg fv := by
  have index := frameIndex_le Config.cfg fv
  have fits := Config.b0Max_le
  exact Nat.mod_eq_of_lt (by omega)

theorem toNat_paramDecode_w0 : (p.paramDecode Config.cfg fv).w0.toNat =
    w0Tab Config.cfg.p2Min (frameIndex Config.cfg fv) :=
  Nat.mod_eq_of_lt (w0Tab_lt_two_pow_32 Config.two_le_p2Min)

theorem toNat_paramDecode_l : (p.paramDecode Config.cfg fv).l.toNat = frameLen Config.cfg fv := by
  have fits : frameLen Config.cfg fv < 2 ^ 16 :=
    (frameLen_range Config.cfg fv).2.trans_lt (by norm_num)
  exact Nat.mod_eq_of_lt fits

theorem toNat_paramDecode_k : (p.paramDecode Config.cfg fv).k.toNat = frameBands Config.cfg fv := by
  have fits : frameBands Config.cfg fv < 2 ^ 16 :=
    (frameBands_range Config.cfg fv).2.trans_lt (by norm_num)
  exact Nat.mod_eq_of_lt fits

/-- The voicing word is masked to the band count (45_voicing.md R256). -/
theorem toNat_maskVoicing (w : Word) (k : Nat) : (maskVoicing w k).toNat = w.toNat % 2 ^ k :=
  Nat.mod_eq_of_lt ((Nat.mod_le _ _).trans_lt w.isLt)

theorem toNat_paramDecode_v : (p.paramDecode Config.cfg fv).v.toNat =
    (cellD fv 1 0).toNat % 2 ^ frameBands Config.cfg fv :=
  toNat_maskVoicing _ _

/-- The part of the invariant of R338 that speaks of the current frame's registers. -/
structure FrameInv (c : Cfg) (p : Psrf) : Prop where
  freq : ∃ b, b ≤ c.b0Max ∧ p.w0.toNat = w0Tab c.p2Min b
  pair : (p.l.toNat, p.k.toNat) = deriveLK p.w0.toNat
  harmonics : 9 ≤ p.l.toNat ∧ p.l.toNat ≤ 56
  bands : 3 ≤ p.k.toNat ∧ p.k.toNat ≤ 12
  flags : p.v.toNat < 2 ^ p.k.toNat
  amps : ∀ i : Fin 56, p.m[i].toNat ≤ 32767
  ampsAbove : ∀ i : Fin 56, p.l.toNat < i.val + 1 → p.m[i] = 0

/-- The parameter decode of any frame vector meets it. -/
theorem frameInv_paramDecode : FrameInv Config.cfg (p.paramDecode Config.cfg fv) where
  freq := ⟨_, frameIndex_le Config.cfg fv, toNat_paramDecode_w0 p fv⟩
  pair := by
    rw [toNat_paramDecode_w0, toNat_paramDecode_l, toNat_paramDecode_k]
    rfl
  harmonics := by
    rw [toNat_paramDecode_l]
    exact frameLen_range Config.cfg fv
  bands := by
    rw [toNat_paramDecode_k]
    exact frameBands_range Config.cfg fv
  flags := by
    rw [toNat_paramDecode_v, toNat_paramDecode_k]
    exact Nat.mod_lt _ (by positivity)
  amps i := enhance_le _ _ _ i
  ampsAbove i above := by
    rw [toNat_paramDecode_l] at above
    exact enhance_above _ _ above

end

/-! ### Band errors, `THMAX` and the threshold (45_voicing.md R253 to R255) -/

theorem bandError_le (tb pb : Nat) : bandError tb pb ≤ 32767 := by
  unfold bandError
  split_ifs
  · exact Nat.le_refl _
  · exact Nat.div_le_of_le_mul (Nat.mul_le_mul_right _ (Nat.sub_le _ _))

theorem length_bandErrors (e : Vector Nat 129) (w0 l k : Nat) :
    (bandErrors e w0 l k).length = k := by
  simp [bandErrors]

theorem bandErrors_le (e : Vector Nat 129) (w0 l k : Nat) :
    ∀ d ∈ bandErrors e w0 l k, d ≤ 32767 := by
  intro d hd
  obtain ⟨kk, -, rfl⟩ := List.mem_map.mp hd
  exact bandError_le _ _

/-- The largest of the errors, 0 if there is none. -/
def largestError (errors : List Nat) : Nat := errors.foldl max 0

theorem largestError_concat (errors : List Nat) (d : Nat) :
    largestError (errors ++ [d]) = max (largestError errors) d :=
  List.foldl_concat ..

theorem largestError_le {errors : List Nat} {b : Nat} (h : ∀ d ∈ errors, d ≤ b) :
    largestError errors ≤ b := by
  induction errors using List.reverseRecOn with
  | nil => exact Nat.zero_le b
  | append_singleton errors d ih =>
    rw [largestError_concat]
    exact max_le (ih fun d hd => h d (List.mem_append_left _ hd)) (h d (by simp))

theorem le_largestError {errors : List Nat} {d : Nat} (hd : d ∈ errors) :
    d ≤ largestError errors := by
  induction errors using List.reverseRecOn with
  | nil => cases hd
  | append_singleton errors d' ih =>
    rw [largestError_concat]
    obtain before | last := List.mem_append.mp hd
    · exact le_max_of_le_left (ih before)
    · exact le_max_of_le_right (List.mem_singleton.mp last).le

theorem largestError_mem {errors : List Nat} (nonempty : errors ≠ []) :
    largestError errors ∈ errors := by
  induction errors using List.reverseRecOn with
  | nil => exact absurd rfl nonempty
  | append_singleton errors d ih =>
    rw [largestError_concat]
    obtain last | earlier := max_choice (largestError errors) d |>.symm
    · rw [last]
      exact List.mem_concat_self
    · rw [earlier]
      by_cases only : errors = []
      · subst only
        have zero : d = 0 := Nat.le_zero.mp (max_eq_left_iff.mp earlier)
        exact List.mem_singleton.mpr zero.symm
      · exact List.mem_append_left _ (ih only)

/-- A product with a factor other than -32768 does not saturate (40_alu.md R144). -/
theorem s16_smul_of_ne {a b : Word} (ne : s16 b ≠ -32768) :
    s16 (smul a b) = Int.fdiv (s16 a * s16 b) 32768 := by
  have lo : -32768 ≤ exactMul a b := exactMul_ge a b
  have hi : exactMul a b ≤ 32767 := not_lt.mp fun h => ne ((exactMul_gt_iff a b).mp h).2
  rw [← exactMul_eq_fdiv, smul, s16_narrow, sat16_of_range lo hi]

theorem s16_ne_of_toNat_le {w : Word} (h : w.toNat ≤ 32767) : s16 w ≠ -32768 := by
  rw [s16_eq_toNat h]
  omega

theorem s16_trackedMax (c : Cfg) (thmax : Word) {errors : List Nat} (h : ∀ d ∈ errors, d ≤ 32767) :
    s16 (trackedMax c thmax errors) =
      max (largestError errors : Int) (s16 (smul thmax c.thDecay)) := by
  have largest : largestError errors ≤ 32767 := largestError_le h
  have decayed := s16_range (smul thmax c.thDecay)
  rw [trackedMax, s16_narrow, ← largestError, sat16_of_range (by omega) (by omega)]

theorem toNat_le_of_s16_nonneg {w : Word} (h : 0 ≤ s16 w) : w.toNat ≤ 32767 := by
  have := BitVec.toInt_eq_toNat_cond w
  have := w.isLt
  unfold s16 at h
  omega

theorem trackedMax_le (c : Cfg) (thmax : Word) (errors : List Nat) :
    (trackedMax c thmax errors).toNat ≤ 32767 := by
  apply toNat_le_of_s16_nonneg
  rw [trackedMax, s16_narrow, sat16]
  split_ifs <;> omega

/-! ### The voicing word (R255) -/

theorem voicingWord_concat (theta : Int) (errors : List Nat) (d : Nat) :
    voicingWord theta (errors ++ [d]) =
      2 ^ errors.length * (decide ((d : Int) < theta)).toNat + voicingWord theta errors := by
  by_cases below : (d : Int) < theta <;>
    simp [voicingWord, List.mapIdx_append, below, Nat.add_comm]

theorem voicingWord_lt (theta : Int) (errors : List Nat) :
    voicingWord theta errors < 2 ^ errors.length := by
  induction errors using List.reverseRecOn with
  | nil => exact Nat.one_pos
  | append_singleton errors d ih =>
    have bit := Nat.mul_le_mul_left (2 ^ errors.length) (decide ((d : Int) < theta)).toNat_le
    rw [voicingWord_concat, List.length_append, List.length_singleton, pow_succ]
    omega

theorem testBit_voicingWord (theta : Int) (errors : List Nat) (k : Nat) :
    (voicingWord theta errors).testBit k =
      decide (k < errors.length ∧ (errors.getD k 0 : Int) < theta) := by
  induction errors using List.reverseRecOn with
  | nil => simp [voicingWord]
  | append_singleton errors d ih =>
    rw [voicingWord_concat, Nat.testBit_two_pow_mul_add _ (voicingWord_lt theta errors), ih,
      List.length_append, List.length_singleton]
    obtain before | rfl | after := lt_trichotomy k errors.length
    · rw [if_pos before, List.getD_append _ _ _ _ before]
      simp [before, Nat.lt_succ_of_lt before]
    · simp [Nat.testBit_bool_toNat, -Nat.testBit_zero]
    · have beyond : ¬k < errors.length + 1 := by omega
      have place : k - errors.length ≠ 0 := by omega
      simp [Nat.testBit_bool_toNat, after.not_gt, beyond, place]

/-- No band is voiced when no error is below the threshold. -/
theorem voicingWord_eq_zero {theta : Int} {errors : List Nat}
    (h : ∀ d ∈ errors, theta ≤ (d : Int)) :
    voicingWord theta errors = 0 := by
  apply Nat.eq_of_testBit_eq
  intro k
  rw [testBit_voicingWord, Nat.zero_testBit, decide_eq_false_iff_not]
  rintro ⟨inside, below⟩
  rw [List.getD_eq_getElem _ _ inside] at below
  exact absurd (h _ (List.getElem_mem inside)) (not_le.mpr below)

theorem s16_voicingThreshold (c : Cfg) (thmax : Word) :
    voicingThreshold c thmax = max (s16 c.thMin) (s16 (smul thmax c.thScale)) := rfl

theorem voicingThreshold_le (c : Cfg) (thmax : Word) : voicingThreshold c thmax ≤ 32767 :=
  max_le (s16_range _).2 (s16_range _).2

/-! ### The stages of the encode path (49_frame_commands.md R332) -/

section

variable (c : Cfg) (p : Psrf) (m : Buffers)

/-- The pitch index of the frame. -/
def encIndex : Nat := (pitchDetect c (pcmSample m) p.pp1.toNat p.pp2.toNat).1

/-- The detector's history value. -/
def encHist : Nat := (pitchDetect c (pcmSample m) p.pp1.toNat p.pp2.toNat).2

/-- The harmonic count of the frame. -/
def encLen : Nat := deriveL (w0Tab c.p2Min (encIndex c p m))

/-- The band errors of the frame. -/
def encErrors : List Nat :=
  bandErrors (binEnergies (analysisSpectrum c m)) (w0Tab c.p2Min (encIndex c p m)) (encLen c p m)
    (bandCount (encLen c p m))

/-- The new `THMAX`. -/
def encThmax : Word := trackedMax c p.thmax (encErrors c p m)

/-- The voicing word of the frame. -/
def encVoicing : Nat := voicingWord (voicingThreshold c (encThmax c p m)) (encErrors c p m)

/-- The energies of the harmonics of the frame. -/
def encEnergies : List Nat :=
  (List.range' 1 (encLen c p m)).map
    (harmonicEnergy (binEnergies (analysisSpectrum c m)) (w0Tab c.p2Min (encIndex c p m)))

/-- The gain index and the fields 3 to 7 of the frame. -/
def encAmp : List Nat :=
  ampEncode c p.mp p.lp.toNat ((encEnergies c p m).map rawAmplitude) (encLen c p m)
    (bandCount (encLen c p m)) (BitVec.ofNat 16 (encVoicing c p m))

/-- The analysis by its stages. -/
theorem encodeAnalysis_eq : encodeAnalysis c p m =
    { spectrum := analysisSpectrum c m
      thmax := encThmax c p m
      hist := encHist c p m
      fv := frameVector (encIndex c p m :: encVoicing c p m :: encAmp c p m) } := by
  unfold encodeAnalysis
  rfl

theorem length_encErrors : (encErrors c p m).length = bandCount (encLen c p m) :=
  length_bandErrors ..

theorem encErrors_le : ∀ d ∈ encErrors c p m, d ≤ 32767 := bandErrors_le _ _ _ _

theorem encLen_range : 9 ≤ encLen c p m ∧ encLen c p m ≤ 56 := deriveL_range _

theorem encBands_range : 3 ≤ bandCount (encLen c p m) ∧ bandCount (encLen c p m) ≤ 12 :=
  bandCount_range (encLen_range c p m).1

theorem encVoicing_lt : encVoicing c p m < 2 ^ bandCount (encLen c p m) :=
  length_encErrors c p m ▸ voicingWord_lt _ _

/-- The amplitude part has six entries: the gain index and five fields cut to their widths. -/
theorem encAmp_eq : ∃ gain s, encAmp c p m = gain :: stringFields s ∧
    ∃ e, gain = gainIndex c e :=
  ⟨_, _, rfl, _, rfl⟩

end

/-! ### The frame vector of `ENCODE` under the built configuration -/

section

variable (p : Psrf) (m : Buffers)

theorem encIndex_le : encIndex Config.cfg p m ≤ Config.cfg.b0Max :=
  pitchDetect_fst_le Config.p2Min_le_p2Max ..

theorem encHist_le : encHist Config.cfg p m ≤ Config.cfg.b0Max :=
  pitchDetect_snd_le Config.p2Min_le_p2Max ..

theorem gainIndex_lt (e : List Int) : gainIndex Config.cfg e < Config.cfg.gainN := by
  obtain ⟨pos, -, len, -⟩ := Config.quantTables
  exact (nearest_isFirstLeast pos len.ge).lt

/-- Each of the eight numbers of the frame vector fits its field (20_memory.md R82). -/
theorem encFields_lt (f : Nat) (hf : f < 8) :
    (encIndex Config.cfg p m :: encVoicing Config.cfg p m :: encAmp Config.cfg p m).getD f 0 <
      2 ^ fieldWidth f := by
  have index : encIndex Config.cfg p m < 2 ^ 12 :=
    (encIndex_le p m).trans_lt (Config.b0Max_le.trans_lt (by norm_num))
  have voicing : encVoicing Config.cfg p m < 2 ^ 12 :=
    (encVoicing_lt Config.cfg p m).trans_le
      (Nat.pow_le_pow_right (by decide) (encBands_range Config.cfg p m).2)
  obtain ⟨gain, s, amp, e, rfl⟩ := encAmp_eq Config.cfg p m
  have gain : gainIndex Config.cfg e < 2 ^ 12 :=
    (gainIndex_lt e).trans_le Config.gainN_le
  rw [amp]
  match f, hf with
  | 0, _ => exact index
  | 1, _ => exact voicing
  | 2, _ => exact gain
  | 3, _ | 4, _ | 5, _ | 6, _ | 7, _ => exact Nat.mod_lt _ (by positivity)

/-- The frame vector `ENCODE` forms, cell by cell. -/
theorem toNat_encFrame {f : Nat} (hf : f < 8) :
    (cellD (encodeAnalysis Config.cfg p m).fv f 0).toNat =
      (encIndex Config.cfg p m :: encVoicing Config.cfg p m :: encAmp Config.cfg p m).getD f 0 := by
  have narrow : ∀ g : Fin 8, 2 ^ fieldWidth g ≤ 2 ^ 16 := by decide
  rw [encodeAnalysis_eq, toNat_frameVector _ hf]
  exact Nat.mod_eq_of_lt ((encFields_lt p m f hf).trans_le (narrow ⟨f, hf⟩))

theorem validFV_encFrame : validFV (encodeAnalysis Config.cfg p m).fv = true := by
  rw [validFV_iff]
  intro f
  rw [getElem_eq_cellD _ f 0, toNat_encFrame p m f.isLt]
  exact encFields_lt p m f f.isLt

/-- The index `ENCODE` writes is in range, so the parameter decode takes it as it is. -/
theorem frameIndex_encFrame :
    frameIndex Config.cfg (encodeAnalysis Config.cfg p m).fv = encIndex Config.cfg p m := by
  rw [frameIndex, toNat_encFrame p m (by decide)]
  exact Nat.min_eq_left (encIndex_le p m)

theorem frameLen_encFrame :
    frameLen Config.cfg (encodeAnalysis Config.cfg p m).fv = encLen Config.cfg p m := by
  rw [frameLen, frameIndex_encFrame]
  rfl

theorem frameBands_encFrame :
    frameBands Config.cfg (encodeAnalysis Config.cfg p m).fv =
      bandCount (encLen Config.cfg p m) := by
  rw [frameBands, frameLen_encFrame]

end

end Sys2Proof.Machine
end

section
/-! PROOFS. The frame commands (49_frame_commands.md R330 to R341): what `ENCODE` leaves, the
shift and the parameter decode that all four share, and the invariant of the PSRF. -/

namespace Sys2Proof.Machine

/-! ### The frame commands, each by the one equation of its meaning -/

theorem exec_encode (s : State) : exec .encode s = .next (encodeFrame Config.cfg s).done := rfl

theorem exec_decode (s : State) : exec .decode s = .next (decodeFrame Config.cfg s).done := rfl

theorem decode_encodebits (a b : Word) : decode ⟨0x2200, a, b⟩ = .ok .encodebits :=
  decode_encode_cw .encodebits a b

theorem decode_decodebits (a b : Word) : decode ⟨0x2300, a, b⟩ = .ok .decodebits :=
  decode_encode_cw .decodebits a b

/-- Settles O54: `PACK` overwrites no more of the state than the response and `BS`. -/
theorem encodebitsIsEncodeThenPack : Obligations.EncodebitsIsEncodeThenPack := by
  unfold Obligations.EncodebitsIsEncodeThenPack
  intro a b s
  exact ⟨decode_encodebits a b, _, _, exec_encode s, exec_pack _, rfl, rfl⟩

/-- Settles O55: `DECODE` looks at no response. -/
theorem decodebitsIsUnpackThenDecode : Obligations.DecodebitsIsUnpackThenDecode := by
  unfold Obligations.DecodebitsIsUnpackThenDecode
  intro a b s
  exact ⟨decode_decodebits a b, _, _, exec_unpack s, exec_decode _, rfl, rfl⟩

/-! ### The registers after `ENCODE` -/

section

variable (p : Psrf) (m : Buffers)

/-- The registers after the encode path, from the shifted registers and the buffers. -/
def encodedRegs : Psrf := p.encoded Config.cfg (encodeAnalysis Config.cfg p m)

theorem encodeFrame_psrf_eq (s : State) :
    (encodeFrame Config.cfg s).done.psrf = encodedRegs s.psrf.frameShift s.bufs := rfl

theorem toNat_encodedRegs_w0 : (encodedRegs p m).w0.toNat =
    w0Tab Config.cfg.p2Min (encIndex Config.cfg p m) :=
  (toNat_paramDecode_w0 p _).trans (by rw [frameIndex_encFrame])

theorem toNat_encodedRegs_l : (encodedRegs p m).l.toNat = encLen Config.cfg p m :=
  (toNat_paramDecode_l p _).trans (frameLen_encFrame p m)

theorem toNat_encodedRegs_k : (encodedRegs p m).k.toNat = bandCount (encLen Config.cfg p m) :=
  (toNat_paramDecode_k p _).trans (frameBands_encFrame p m)

/-- The voicing word `ENCODE` writes has no bits to mask away. -/
theorem toNat_encodedRegs_v : (encodedRegs p m).v.toNat = encVoicing Config.cfg p m := by
  refine (toNat_paramDecode_v p _).trans ?_
  rw [frameBands_encFrame, toNat_encFrame p m (by decide)]
  exact Nat.mod_eq_of_lt (encVoicing_lt Config.cfg p m)

theorem encodedRegs_pc : (encodedRegs p m).pc = BitVec.ofNat 16 (encHist Config.cfg p m) := by
  rw [encodedRegs, Psrf.encoded_pc, encodeAnalysis_eq]

theorem toNat_encodedRegs_pc_le : (encodedRegs p m).pc.toNat ≤ Config.cfg.b0Max := by
  rw [encodedRegs_pc, BitVec.toNat_ofNat]
  exact (Nat.mod_le _ _).trans (encHist_le p m)

theorem encodedRegs_thmax : (encodedRegs p m).thmax = encThmax Config.cfg p m := by
  rw [encodedRegs, Psrf.encoded_thmax, encodeAnalysis_eq]

end

/-- The cells of `FV` after `ENCODE`. -/
theorem toNat_encodeFrame_fv (s : State) (f : Fin 8) :
    ((encodeFrame Config.cfg s).done.bufs.fv[f]).toNat =
      (encIndex Config.cfg s.psrf.frameShift s.bufs ::
        encVoicing Config.cfg s.psrf.frameShift s.bufs ::
        encAmp Config.cfg s.psrf.frameShift s.bufs).getD f 0 :=
  (congrArg BitVec.toNat (getElem_eq_cellD _ f 0)).trans (toNat_encFrame _ _ f.isLt)

theorem toNat_encodeFrame_fv_zero (s : State) : ((encodeFrame Config.cfg s).done.bufs.fv[0]).toNat =
    encIndex Config.cfg s.psrf.frameShift s.bufs :=
  toNat_encodeFrame_fv s 0

theorem toNat_encodeFrame_fv_one (s : State) : ((encodeFrame Config.cfg s).done.bufs.fv[1]).toNat =
    encVoicing Config.cfg s.psrf.frameShift s.bufs :=
  toNat_encodeFrame_fv s 1

/-- The gain index is an index of the gain table. -/
theorem toNat_encodeFrame_fv_two_lt (s : State) :
    ((encodeFrame Config.cfg s).done.bufs.fv[2]).toNat < Config.cfg.gainN :=
  (toNat_encodeFrame_fv s 2).trans_lt (gainIndex_lt _)

/-- Settles O52: the frame vector is the analysis', whose eight numbers fit their fields, and the
registers are its parameter decode. -/
theorem encodeCompletesWithAValidFrame : Obligations.EncodeCompletesWithAValidFrame := by
  unfold Obligations.EncodeCompletesWithAValidFrame
  intro s
  have index := toNat_encodeFrame_fv_zero s
  refine ⟨_, exec_encode s, rfl, rfl, validFV_encFrame _ _, ?pitch, ?voicing,
    toNat_encodeFrame_fv_two_lt s, ?frequency, toNat_encodedRegs_pc_le _ _, ?threshold,
    rfl, rfl, rfl, rfl, rfl, rfl, rfl⟩
  case pitch => exact index.trans_le (encIndex_le _ _)
  case voicing =>
    exact BitVec.eq_of_toNat_eq
      ((toNat_encodeFrame_fv_one s).trans (toNat_encodedRegs_v _ _).symm)
  case frequency =>
    rw [index]
    exact toNat_encodedRegs_w0 _ _
  case threshold =>
    rw [encodeFrame_psrf_eq, encodedRegs_thmax]
    exact trackedMax_le ..

/-! ### The single jump, and silence (44_pitch.md R234, R235; 45_voicing.md R253 to R255) -/

/-- Settles O34: after the shift the two history values are `PC` and `PP1`. -/
theorem medianAbsorbsASingleJump : Obligations.MedianAbsorbsASingleJump := by
  unfold Obligations.MedianAbsorbsASingleJump
  intro s same inRange
  refine ⟨_, exec_encode s, BitVec.eq_of_toNat_eq ((toNat_encodeFrame_fv_zero s).trans ?_)⟩
  rw [encIndex, Psrf.frameShift_pp1, Psrf.frameShift_pp2, ← same]
  exact pitchDetect_fst_of_same Config.p2Min_le_p2Max _ inRange

section

variable {m : Buffers} (silent : ∀ i : Fin 160, m.pcmi[i] = 0)

include silent

theorem cellD_pcmi_of_silent (n : Nat) : cellD m.pcmi n 0 = 0 := by
  by_cases inside : n < 160
  · rw [cellD_of_lt _ inside]
    exact silent ⟨n, inside⟩
  · exact cellD_of_ge _ (Nat.le_of_not_lt inside) 0

theorem pcmSample_of_silent : pcmSample m = fun _ => 0 := by
  funext n
  rw [pcmSample, cellD_pcmi_of_silent silent]
  rfl

/-- The window and the transform of silence are silence. -/
theorem analysisSpectrum_of_silent (c : Cfg) :
    analysisSpectrum c m = (Vector.replicate 256 0, Vector.replicate 256 0) := by
  have window : windowedFrame c m = Vector.replicate 256 0 := by
    apply Vector.ext
    intro n hn
    simp only [windowedFrame, Vector.getElem_ofFn, Vector.getElem_replicate,
      cellD_pcmi_of_silent silent]
    split_ifs
    · exact zero_smul_word _
    · rfl
  rw [analysisSpectrum, window, fftCore_zero]

end

theorem sumNat_zero (lo hi : Nat) : (sumNat lo hi fun _ => 0) = 0 := by
  simp [sumNat]

/-- Every bin of a zero spectrum has no energy. -/
theorem cellD_binEnergies_zero (n : Nat) :
    cellD (binEnergies (Vector.replicate 256 0, Vector.replicate 256 0)) n 0 = 0 := by
  simp [binEnergies, s16]

/-- Every band without energy has the greatest error (45_voicing.md R253). -/
theorem bandErrors_zero (w0 l k : Nat) :
    bandErrors (binEnergies (Vector.replicate 256 0, Vector.replicate 256 0)) w0 l k =
      List.replicate k 32767 := by
  have noEnergy : harmonicEnergy (binEnergies (Vector.replicate 256 0, Vector.replicate 256 0)) w0 =
      fun _ => 0 := by
    funext h
    simp only [harmonicEnergy, cellD_binEnergies_zero, sumNat_zero]
  have silentBand (hs : List Nat) (pb : Nat) : bandError (hs.map fun _ => 0).sum pb = 32767 :=
    if_pos (by simp)
  rw [bandErrors, noEnergy]
  simp only [silentBand]
  rw [List.map_const', List.length_range]

section

variable {p : Psrf} {m : Buffers} (silent : ∀ i : Fin 160, m.pcmi[i] = 0)

include silent

theorem encErrors_of_silent (c : Cfg) :
    encErrors c p m = List.replicate (bandCount (encLen c p m)) 32767 := by
  rw [encErrors, analysisSpectrum_of_silent silent, bandErrors_zero]

theorem encThmax_of_silent (c : Cfg) : encThmax c p m = 32767 := by
  have bands := (encBands_range c p m).1
  have largest : largestError (encErrors c p m) = 32767 := by
    refine Nat.le_antisymm (largestError_le (encErrors_le c p m)) (le_largestError ?_)
    rw [encErrors_of_silent silent]
    exact List.mem_replicate.mpr ⟨by omega, rfl⟩
  have decayed := s16_range (smul p.thmax c.thDecay)
  rw [← u16_s16 (encThmax c p m), encThmax, s16_trackedMax c p.thmax (encErrors_le c p m), largest,
    max_eq_left (by omega)]
  rfl

theorem encVoicing_of_silent (c : Cfg) : encVoicing c p m = 0 := by
  refine voicingWord_eq_zero fun d hd => ?_
  rw [encErrors_of_silent silent] at hd
  rw [List.eq_of_mem_replicate hd]
  exact voicingThreshold_le _ _

theorem encHist_of_silent (inRange : p.pp1.toNat ≤ Config.cfg.b0Max) :
    encHist Config.cfg p m = p.pp1.toNat := by
  rw [encHist, pcmSample_of_silent silent]
  exact pitchDetect_snd_of_no_candidate Config.p2Min_le_p2Max _ inRange _ (coarseSearch_silence _)

end

/-- Settles O36: a frame of zeros has no candidate lag, a zero spectrum, and the greatest error in
every band, which no threshold exceeds. -/
theorem encodingSilence : Obligations.EncodingSilence := by
  unfold Obligations.EncodingSilence
  intro s silent inRange
  refine ⟨_, exec_encode s, ?history, ?threshold, ?field, ?flags, fun k => ?spectrum⟩
  case history =>
    rw [encodeFrame_psrf_eq, encodedRegs_pc, encHist_of_silent silent inRange]
    exact BitVec.ofNat_toNat _ _
  case threshold => rw [encodeFrame_psrf_eq, encodedRegs_thmax, encThmax_of_silent silent]
  case field =>
    exact BitVec.eq_of_toNat_eq
      ((toNat_encodeFrame_fv_one s).trans (encVoicing_of_silent silent _))
  case flags =>
    exact BitVec.eq_of_toNat_eq ((toNat_encodedRegs_v _ _).trans (encVoicing_of_silent silent _))
  case spectrum =>
    rw [State.done_bufs, encodeFrame_bufs, Buffers.encoded_spr, Buffers.encoded_spi,
      encodeAnalysis_eq, analysisSpectrum_of_silent silent]
    simp

/-! ### The voicing decision of `ENCODE` (45_voicing.md R253 to R255) -/

/-- The errors as the spectrum and the counts that `ENCODE` leaves give them. -/
theorem encErrors_eq_of_encodeFrame (s : State) {t : State}
    (ht : t = (encodeFrame Config.cfg s).done) :
    bandErrors (binEnergies (t.bufs.spr, t.bufs.spi)) t.psrf.w0.toNat t.psrf.l.toNat
        t.psrf.k.toNat =
      encErrors Config.cfg s.psrf.frameShift s.bufs := by
  subst ht
  rw [encodeFrame_psrf_eq, toNat_encodedRegs_w0, toNat_encodedRegs_l, toNat_encodedRegs_k,
    State.done_bufs, encodeFrame_bufs, Buffers.encoded_spr, Buffers.encoded_spi, encodeAnalysis_eq]
  rfl

theorem getD_le_largestError (errors : List Nat) (k : Nat) :
    errors.getD k 0 ≤ largestError errors := by
  by_cases inside : k < errors.length
  · rw [List.getD_eq_getElem _ _ inside]
    exact le_largestError (List.getElem_mem inside)
  · rw [List.getD_eq_default _ _ (Nat.le_of_not_lt inside)]
    exact Nat.zero_le _

theorem exists_getD_eq_largestError {errors : List Nat} (nonempty : errors ≠ []) :
    ∃ k, k < errors.length ∧ errors.getD k 0 = largestError errors := by
  obtain ⟨k, inside, eq⟩ := List.mem_iff_getElem.mp (largestError_mem nonempty)
  exact ⟨k, inside, (List.getD_eq_getElem _ _ inside).trans eq⟩

/-- Settles O37: the voicing word bit by bit, and `THMAX` as the greater of the largest error and
the decayed old value. -/
theorem voicedBandsAreThoseBelowTheThreshold :
    Obligations.VoicedBandsAreThoseBelowTheThreshold := by
  unfold Obligations.VoicedBandsAreThoseBelowTheThreshold
  refine ⟨testBit_voicingWord, fun s => ⟨_, exec_encode s, ?_⟩⟩
  obtain ⟨decay, scale, -⟩ := Config.thresholds
  set p := s.psrf.frameShift
  set m := s.bufs
  intro errors decayed theta
  have errorsEq : errors = encErrors Config.cfg p m := encErrors_eq_of_encodeFrame s rfl
  have thmaxEq : (encodeFrame Config.cfg s).done.psrf.thmax = encThmax Config.cfg p m :=
    encodedRegs_thmax p m
  have decayedEq : decayed = s16 (smul p.thmax Config.cfg.thDecay) :=
    (s16_smul_of_ne (s16_ne_of_toNat_le decay)).symm
  have thetaEq : theta = voicingThreshold Config.cfg (encThmax Config.cfg p m) := by
    rw [s16_voicingThreshold, s16_smul_of_ne (s16_ne_of_toNat_le scale), ← thmaxEq]
    rfl
  have value : (encThmax Config.cfg p m).toInt =
      max (largestError (encErrors Config.cfg p m) : Int) decayed :=
    decayedEq ▸ s16_trackedMax Config.cfg p.thmax (encErrors_le Config.cfg p m)
  have nonempty : encErrors Config.cfg p m ≠ [] := by
    have bands := (encBands_range Config.cfg p m).1
    rw [← length_encErrors] at bands
    exact List.ne_nil_of_length_pos (by omega)
  rw [errorsEq, thmaxEq, thetaEq, value]
  refine ⟨?length, fun k => ?above, le_max_right _ _, ?attained, fun k => ?bit⟩
  case length => exact (length_encErrors ..).trans (toNat_encodedRegs_k p m).symm
  case above => exact le_max_of_le_left (Int.ofNat_le.mpr (getD_le_largestError _ k))
  case attained =>
    obtain largest | old := max_choice (largestError (encErrors Config.cfg p m) : Int) decayed
    · obtain ⟨k, inside, eq⟩ := exists_getD_eq_largestError nonempty
      exact .inr ⟨k, inside, largest.trans (congrArg _ eq.symm)⟩
    · exact .inl old
  case bit =>
    rw [BitVec.getLsbD, toNat_encodeFrame_fv_one]
    exact testBit_voicingWord _ _ k

end Sys2Proof.Machine
end

section
/-! PROOFS. The synthesis (47_voiced_synth.md R295 to R302, 48_unvoiced_synth.md R310 to R319): the
phases and the noise seed as iterations, and what silences the noise part or the voiced part. -/

namespace Sys2Proof.Machine

/-! ### The noise seed (R311) -/

/-- The generator on numbers. -/
def seedNext (u : Nat) : Nat := (Config.cfg.noiseA * u + Config.cfg.noiseC) % Config.cfg.noiseM

theorem seedNext_lt (u : Nat) : seedNext u < Config.cfg.noiseM := by
  obtain ⟨two_le, -⟩ := Config.noise
  exact Nat.mod_lt _ (Nat.zero_lt_two.trans_le two_le)

theorem toNat_noiseNext (seed : Word) :
    (noiseNext Config.cfg seed).toNat = seedNext seed.toNat := by
  obtain ⟨-, le, -⟩ := Config.noise
  exact Nat.mod_eq_of_lt ((seedNext_lt _).trans_le le)

theorem noiseDraws_zero (c : Cfg) (seed : Word) : noiseDraws c 0 seed = ([], seed) := by
  delta noiseDraws
  rfl

theorem noiseDraws_succ (c : Cfg) (count : Nat) (seed : Word) :
    noiseDraws c (count + 1) seed =
      (noiseSample c (noiseNext c seed) :: (noiseDraws c count (noiseNext c seed)).1,
        (noiseDraws c count (noiseNext c seed)).2) := by
  delta noiseDraws
  rfl

theorem noiseDraws_snd (c : Cfg) (count : Nat) (seed : Word) :
    (noiseDraws c count seed).2 = (noiseNext c)^[count] seed := by
  induction count generalizing seed with
  | zero => rw [noiseDraws_zero, Function.iterate_zero_apply]
  | succ count ih => rw [noiseDraws_succ, ih, Function.iterate_succ_apply]

theorem toNat_noiseDraws_snd (count : Nat) (seed : Word) :
    (noiseDraws Config.cfg count seed).2.toNat = seedNext^[count] seed.toNat := by
  have commutes : Function.Semiconj BitVec.toNat (noiseNext Config.cfg) seedNext := toNat_noiseNext
  rw [noiseDraws_snd]
  exact commutes.iterate_right count seed

/-- Every frame leaves the seed below the modulus, whatever it found. -/
theorem toNat_noiseDraws_snd_lt (seed : Word) :
    (noiseDraws Config.cfg 256 seed).2.toNat < Config.cfg.noiseM := by
  rw [toNat_noiseDraws_snd, Function.iterate_succ_apply']
  exact seedNext_lt _

/-- What `UNPACK` has formed is all `DECODEBITS` adds to `DECODE`. -/
theorem exec_decodebits (s : State) : exec .decodebits s =
    .next (decodeFrame Config.cfg { s with bufs := s.bufs.unpacked }).done := rfl

/-- Settles O45. -/
theorem seedAdvancesBy256Draws : Obligations.SeedAdvancesBy256Draws := by
  unfold Obligations.SeedAdvancesBy256Draws
  rintro i (rfl | rfl) s
  · exact ⟨_, exec_decode s, toNat_noiseDraws_snd 256 _⟩
  · exact ⟨_, exec_decodebits s, toNat_noiseDraws_snd 256 _⟩

/-! ### The phases (R297, R300) -/

theorem getElem_advancePhases (len w : Nat) (ph : Vector Word32 56) (i : Fin 56) :
    (advancePhases len w ph)[i] =
      if i.val + 1 ≤ len then ph[i] + BitVec.ofNat 32 ((i.val + 1) * w) else ph[i] := by
  simp [advancePhases]

theorem getElem_clearSlots (len : Nat) (ph : Vector Word32 56) (i : Fin 56) :
    (clearSlots len ph)[i] = if i.val + 1 ≤ len then ph[i] else 0 := by
  simp [clearSlots]

/-- A sounding slot advances by its number times the sum of the fundamentals. -/
theorem getElem_voicedLoop_snd (p : Psrf) (amps : List (Nat × Int × Int)) (i : Fin 56)
    (sounding : i.val + 1 ≤ p.l.toNat) (count n : Nat) (ph : Vector Word32 56) :
    (voicedLoop p amps count n ph).2[i] = ph[i] +
      BitVec.ofNat 32 ((i.val + 1) * ((List.range' n count).map (fundamentalAt p)).sum) := by
  induction count generalizing n ph with
  | zero => simp [voicedLoop]
  | succ count ih =>
    rw [voicedLoop, ih, getElem_advancePhases, if_pos sounding, List.range'_succ, List.map_cons,
      List.sum_cons, Nat.mul_add, BitVec.ofNat_add, BitVec.add_assoc]

theorem getElem_voicedSynth_snd (p : Psrf) (i : Fin 56) : (voicedSynth p).2[i] =
    if i.val + 1 ≤ p.l.toNat then
      p.ph[i] + BitVec.ofNat 32 ((i.val + 1) * ((List.range 160).map (fundamentalAt p)).sum)
    else 0 := by
  unfold voicedSynth
  rw [getElem_clearSlots]
  split_ifs with sounding
  · rw [getElem_voicedLoop_snd p _ i sounding, List.range_eq_range']
  · rfl

/-- Settles O44: the loop over the 160 samples adds up its advances. -/
theorem decodeAdvancesThePhases : Obligations.DecodeAdvancesThePhases := by
  unfold Obligations.DecodeAdvancesThePhases
  refine fun s => ⟨_, exec_decode s, fun i => ?_⟩
  have slot := getElem_voicedSynth_snd (decodedRegs Config.cfg s) i
  refine (congrArg BitVec.toNat slot).trans ?_
  rw [apply_ite BitVec.toNat, BitVec.toNat_add, BitVec.toNat_ofNat, Nat.add_mod_mod]
  rfl

/-! ### The noise part: what it depends on, and when it is silent (R313 to R319) -/

/-- The noise part does not see the phases. -/
theorem noiseOutput_ph (c : Cfg) (p : Psrf) (ph : Vector Word32 56) :
    noiseOutput c { p with ph := ph } = noiseOutput c p := by
  unfold noiseOutput
  rfl

/-- The noise part does not see the old tail. -/
theorem noiseOutput_uvt (c : Cfg) (p : Psrf) (uvt : Vector Word 96) :
    noiseOutput c { p with uvt := uvt } = noiseOutput c p := by
  unfold noiseOutput
  rfl

theorem voicedLoop_uvt (p : Psrf) (uvt : Vector Word 96) (amps : List (Nat × Int × Int))
    (count n : Nat) (ph : Vector Word32 56) :
    voicedLoop { p with uvt := uvt } amps count n ph = voicedLoop p amps count n ph := by
  induction count generalizing n ph with
  | zero => rfl
  | succ count ih =>
    rw [voicedLoop, voicedLoop, ih]
    rfl

/-- The voiced part does not see the old tail. -/
theorem voicedSynth_uvt (p : Psrf) (uvt : Vector Word 96) :
    voicedSynth { p with uvt := uvt } = voicedSynth p := by
  have amps : oscillatorAmps { p with uvt := uvt } = oscillatorAmps p := rfl
  unfold voicedSynth
  simp only [voicedLoop_uvt, amps]

theorem getElem_mixedFrame (c : Cfg) (p : Psrf) (i : Fin 160) : (mixedFrame c p)[i] =
    sadd ((voicedSynth p).1.getD i 0) (overlapAdd c p.uvt (noiseOutput c p).1 i) := by
  unfold mixedFrame
  rw [Fin.getElem_fin, Vector.getElem_ofFn]

/-- From sample 96 on the old tail is not added (R316). -/
theorem overlapAdd_of_ge (c : Cfg) (uvt : Vector Word 96) (re : Vector Word 256) {n : Nat}
    (hn : 96 ≤ n) : overlapAdd c uvt re n = windowedNoise c re n :=
  if_neg (Nat.not_lt.mpr hn)

/-- Settles O49: neither part of the synthesis sees the old tail, and the mix adds it below sample
96 only. -/
theorem tailHasNoFeedback : Obligations.TailHasNoFeedback := by
  unfold Obligations.TailHasNoFeedback
  intro s uvt
  have regs : decodedRegs Config.cfg { s with psrf := { s.psrf with uvt := uvt } } =
      { decodedRegs Config.cfg s with uvt := uvt } := rfl
  have noise := noiseOutput_uvt Config.cfg (decodedRegs Config.cfg s) uvt
  have voiced := voicedSynth_uvt (decodedRegs Config.cfg s) uvt
  refine ⟨_, _, exec_decode _, exec_decode _, ?psrf, ?real, ?imag, fun n hn => ?samples⟩
  case psrf =>
    rw [State.done_psrf, State.done_psrf, decodeFrame_psrf, decodeFrame_psrf, regs]
    simp only [Psrf.synthesized, noise, voiced]
  case real =>
    rw [State.done_bufs, State.done_bufs, decodeFrame_bufs, decodeFrame_bufs, regs,
      Buffers.synthesized_spr, Buffers.synthesized_spr, noise]
  case imag =>
    rw [State.done_bufs, State.done_bufs, decodeFrame_bufs, decodeFrame_bufs, regs,
      Buffers.synthesized_spi, Buffers.synthesized_spi, noise]
  case samples =>
    simp only [State.done_bufs, decodeFrame_bufs, regs, Buffers.synthesized_pcmo,
      getElem_mixedFrame, noise, voiced, overlapAdd_of_ge _ _ _ hn]

/-! ### No noise where every harmonic is voiced (R318) -/

/-- A band below the count is voiced when its bit is set. -/
theorem voiced_maskVoicing (w : Word) {k j : Nat} (hj : j < k) :
    voiced (maskVoicing w k) j = w.getLsbD j := by
  rw [voiced, BitVec.getLsbD, toNat_maskVoicing, Nat.testBit_mod_two_pow, decide_eq_true hj,
    Bool.true_and]
  rfl

/-- With every harmonic voiced no bin has a gain. -/
theorem spectralGain_of_voiced {p : Psrf}
    (all : ∀ l, voiced p.v (band l p.k.toNat) = true) (m : Nat) :
    spectralGain p m = 0 := by
  rw [spectralGain_eq_gainAmong]
  induction p.l.toNat with
  | zero => exact gainAmong_zero p m
  | succ n ih => rw [gainAmong_succ, all, ih]; rfl

/-- A value with no gain is shaped away (R314). -/
theorem shapeWord_zero (c : Cfg) (x : Word) : shapeWord c x 0 = 0 := by
  have product : asr (s16 x * 0) c.uvShift = 0 := by simp [asr]
  rw [shapeWord, product]
  rfl

theorem shapedReal_zero (c : Cfg) (re : Vector Word 256) :
    shapedReal c (Vector.replicate 129 0) re = Vector.replicate 256 0 := by
  apply Vector.ext
  intro m hm
  simp only [shapedReal, Vector.getElem_ofFn, Vector.getElem_replicate, cellD_replicate, ite_self,
    shapeWord_zero]

theorem shapedImagLow_zero (c : Cfg) (im : Vector Word 256) (m : Nat) :
    shapedImagLow c (Vector.replicate 129 0) im m = 0 := by
  simp only [shapedImagLow, cellD_replicate, ite_self, shapeWord_zero]

theorem shapedImag_zero (c : Cfg) (im : Vector Word 256) :
    shapedImag c (Vector.replicate 129 0) im = Vector.replicate 256 0 := by
  apply Vector.ext
  intro m hm
  simp only [shapedImag, Vector.getElem_ofFn, Vector.getElem_replicate, shapedImagLow_zero]
  split_ifs
  · rfl
  · exact ssub_zero 0

/-- With every harmonic voiced the shaped spectrum is zero. -/
theorem shapeSpectrum_of_voiced (c : Cfg) {p : Psrf}
    (all : ∀ l, voiced p.v (band l p.k.toNat) = true) (x : Vector Word 256 × Vector Word 256) :
    shapeSpectrum c p x = (Vector.replicate 256 0, Vector.replicate 256 0) := by
  have gains : (Vector.ofFn fun m : Fin 129 => spectralGain p m) = Vector.replicate 129 0 := by
    apply Vector.ext
    intro m hm
    rw [Vector.getElem_ofFn, Vector.getElem_replicate, spectralGain_of_voiced all]
  simp only [shapeSpectrum, gains, shapedReal_zero, shapedImag_zero]

/-- With every harmonic voiced the noise part is silent. -/
theorem noiseOutput_of_voiced (c : Cfg) {p : Psrf}
    (all : ∀ l, voiced p.v (band l p.k.toNat) = true) :
    noiseOutput c p = (Vector.replicate 256 0, Vector.replicate 256 0) := by
  unfold noiseOutput
  rw [shapedNoise, shapeSpectrum_of_voiced c all, fftCore_zero]

theorem windowedNoise_zero (c : Cfg) (n : Nat) :
    windowedNoise c (Vector.replicate 256 0) n = 0 := by
  rw [windowedNoise, cellD_replicate, ite_self]
  exact zero_smul_word _

theorem noiseTail_zero (c : Cfg) :
    noiseTail c (Vector.replicate 256 0) = Vector.replicate 96 0 := by
  unfold noiseTail
  apply Vector.ext
  intro n hn
  simp only [Vector.getElem_ofFn, Vector.getElem_replicate, windowedNoise_zero]

/-- Without noise the old tail alone is joined, and there is none from sample 96 on. -/
theorem overlapAdd_zero (c : Cfg) (uvt : Vector Word 96) (n : Nat) :
    overlapAdd c uvt (Vector.replicate 256 0) n = cellD uvt n 0 := by
  rw [overlapAdd, windowedNoise_zero]
  split_ifs with tail
  · exact sadd_zero _
  · exact (cellD_of_ge _ (Nat.le_of_not_lt tail) 0).symm

/-- Settles O47: the bits of the twelve bands survive the mask, so every harmonic is voiced. -/
theorem allVoicedFrameHasNoNoise : Obligations.AllVoicedFrameHasNoNoise := by
  unfold Obligations.AllVoicedFrameHasNoNoise
  intro s set
  have all (l : Nat) : voiced (decodedRegs Config.cfg s).v
      (band l (decodedRegs Config.cfg s).k.toNat) = true := by
    have bands := frameBands_range Config.cfg s.bufs.fv
    have inside : band l (frameBands Config.cfg s.bufs.fv) < frameBands Config.cfg s.bufs.fv :=
      band_lt (by omega) l
    have count : (decodedRegs Config.cfg s).k.toNat = frameBands Config.cfg s.bufs.fv :=
      toNat_paramDecode_k ..
    rw [count]
    exact (voiced_maskVoicing _ inside).trans (set _ (by omega))
  have noise := noiseOutput_of_voiced Config.cfg all
  refine ⟨_, exec_decode s, fun i => ?tail, fun k => ?spectrum, fun i => ?samples⟩
  case tail =>
    rw [State.done_psrf, decodeFrame_psrf, Psrf.synthesized_uvt, noise, noiseTail_zero]
    simp
  case spectrum =>
    rw [State.done_bufs, decodeFrame_bufs, Buffers.synthesized_spr, Buffers.synthesized_spi, noise]
    simp
  case samples =>
    rw [State.done_bufs, decodeFrame_bufs, Buffers.synthesized_pcmo, getElem_mixedFrame, noise,
      overlapAdd_zero]
    rfl

/-! ### No voiced part where no harmonic is voiced (47_voiced_synth.md R296, R302) -/

theorem voiced_zero (k : Nat) : voiced 0#16 k = false := BitVec.getLsbD_zero

/-- Without voicing in either frame every oscillator has amplitude 0 throughout. -/
theorem oscillatorAmps_of_unvoiced {p : Psrf} (before : p.vp = 0) (now : p.v = 0) :
    ∀ x ∈ oscillatorAmps p, x.2 = (0, 0) := by
  intro x hx
  obtain ⟨l, -, rfl⟩ := List.mem_map.mp hx
  simp [startAmp, endAmp, before, now, voiced_zero]

theorem ampAt_zero (n : Nat) : ampAt 0 0 n = 0 := by
  rw [ampAt, zero_mul, zero_mul]
  rfl

theorem oscillator_zero (phase : Word32) : oscillator 0 phase = 0 := zero_smul_word _

theorem voicedSample_of_silent {amps : List (Nat × Int × Int)} (silent : ∀ x ∈ amps, x.2 = (0, 0))
    (ph : Vector Word32 56) (n : Nat) : voicedSample amps ph n = 0 := by
  unfold voicedSample
  induction amps with
  | nil => rfl
  | cons x amps ih =>
    obtain ⟨first, rest⟩ := List.forall_mem_cons.mp silent
    rw [List.foldl_cons, first, ampAt_zero, oscillator_zero, show sadd 0 0 = 0 from sadd_zero 0]
    exact ih rest

theorem voicedLoop_of_silent (p : Psrf) {amps : List (Nat × Int × Int)}
    (silent : ∀ x ∈ amps, x.2 = (0, 0)) (count n : Nat) (ph : Vector Word32 56) :
    (voicedLoop p amps count n ph).1 = List.replicate count 0 := by
  induction count generalizing n ph with
  | zero => rfl
  | succ count ih => rw [voicedLoop, ih, voicedSample_of_silent silent, List.replicate_succ]

theorem voicedSynth_of_unvoiced {p : Psrf} (before : p.vp = 0) (now : p.v = 0) :
    (voicedSynth p).1 = List.replicate 160 0 := by
  unfold voicedSynth
  exact voicedLoop_of_silent p (oscillatorAmps_of_unvoiced before now) 160 0 p.ph

theorem maskVoicing_zero (k : Nat) : maskVoicing 0 k = 0 :=
  BitVec.eq_of_toNat_eq ((toNat_maskVoicing 0 k).trans (Nat.zero_mod _))

/-- Settles O48: the voiced part is zero whatever the phases, and the noise part does not see
them. -/
theorem unvoicedFrameIgnoresPhases : Obligations.UnvoicedFrameIgnoresPhases := by
  unfold Obligations.UnvoicedFrameIgnoresPhases
  intro s ph before now
  have regs : decodedRegs Config.cfg { s with psrf := { s.psrf with ph := ph } } =
      { decodedRegs Config.cfg s with ph := ph } := rfl
  have noise := noiseOutput_ph Config.cfg (decodedRegs Config.cfg s) ph
  have flags : (decodedRegs Config.cfg s).v = 0 := by
    have word : cellD s.bufs.fv 1 0 = 0 := (cellD_of_lt _ (by decide) 0).trans now
    rw [decodedRegs, Psrf.paramDecode_v, word, maskVoicing_zero]
  have silent : (voicedSynth (decodedRegs Config.cfg s)).1 = List.replicate 160 0 :=
    voicedSynth_of_unvoiced before flags
  have silent' : (voicedSynth { decodedRegs Config.cfg s with ph := ph }).1 =
      List.replicate 160 0 :=
    voicedSynth_of_unvoiced before flags
  have mix : mixedFrame Config.cfg { decodedRegs Config.cfg s with ph := ph } =
      mixedFrame Config.cfg (decodedRegs Config.cfg s) := by
    unfold mixedFrame
    rw [silent, silent', noise]
  refine ⟨_, _, exec_decode _, exec_decode _, ?buffers, ?tail, fun n => ?samples⟩
  case buffers =>
    rw [State.done_bufs, State.done_bufs, decodeFrame_bufs, decodeFrame_bufs, regs]
    simp only [Buffers.synthesized, noise, mix]
  case tail =>
    rw [State.done_psrf, State.done_psrf, decodeFrame_psrf, decodeFrame_psrf, regs,
      Psrf.synthesized_uvt, Psrf.synthesized_uvt, noise]
  case samples => rw [silent, List.getD_replicate _ n.isLt]

end Sys2Proof.Machine
end

section
/-! PROOFS. The decode path on any frame vector (46_amplitude.md R272, R273, R285,
49_frame_commands.md R335): the parameter decode reads four things of a frame vector, and from a
flat spectrum the zeroed vector gives a flat one. -/

namespace Sys2Proof.Machine

/-! ### What the parameter decode reads of a frame vector -/

/-- The gain index of a frame vector, clamped on the whole cell (R273). -/
def frameGain (c : Cfg) (fv : Vector Word 8) : Nat := min (cellD fv 2 0).toNat (c.gainN - 1)

/-- Frame vectors that agree in the clamped indices, the masked voicing word and the bit string. -/
structure SameFrame (c : Cfg) (fv fv' : Vector Word 8) : Prop where
  index : frameIndex c fv = frameIndex c fv'
  flags : maskVoicing (cellD fv 1 0) (frameBands c fv) =
    maskVoicing (cellD fv' 1 0) (frameBands c fv)
  gain : frameGain c fv = frameGain c fv'
  string : frameString fv = frameString fv'

/-- Such frame vectors decode to the same registers. -/
theorem SameFrame.paramDecode_eq {c : Cfg} {fv fv' : Vector Word 8} (same : SameFrame c fv fv')
    (p : Psrf) : p.paramDecode c fv = p.paramDecode c fv' := by
  obtain ⟨index, flags, gain, string⟩ := same
  simp only [frameBands, frameLen] at flags
  simp only [frameGain] at gain
  simp only [Psrf.paramDecode, ampDecode, ← index, flags, gain, string]

/-! ### The reduced frame vector -/

/-- A frame vector with its indices clamped, its voicing word masked to `bands` and its words 3 to
7 cut to their widths. -/
def reducedFV (fv : Vector Word 8) (bands : Nat) : Vector Word 8 :=
  Vector.ofFn fun f => BitVec.ofNat 16
    (if f.val = 0 then min fv[0].toNat Config.cfg.b0Max
    else if f.val = 1 then fv[1].toNat % 2 ^ bands
    else if f.val = 2 then min fv[2].toNat (Config.cfg.gainN - 1)
    else fv[f].toNat % 2 ^ fieldWidth f.val)

section

variable (fv : Vector Word 8) (bands : Nat)

theorem toNat_reducedFV_zero :
    (cellD (reducedFV fv bands) 0 0).toNat = min (cellD fv 0 0).toNat Config.cfg.b0Max := by
  rw [reducedFV, cellD_ofFn, dif_pos (by decide), cellD_of_lt fv (by decide)]
  exact Nat.mod_eq_of_lt ((Nat.min_le_left _ _).trans_lt (BitVec.isLt _))

theorem toNat_reducedFV_one :
    (cellD (reducedFV fv bands) 1 0).toNat = (cellD fv 1 0).toNat % 2 ^ bands := by
  rw [reducedFV, cellD_ofFn, dif_pos (by decide), cellD_of_lt fv (by decide)]
  exact Nat.mod_eq_of_lt ((Nat.mod_le _ _).trans_lt (BitVec.isLt _))

theorem toNat_reducedFV_two :
    (cellD (reducedFV fv bands) 2 0).toNat = min (cellD fv 2 0).toNat (Config.cfg.gainN - 1) := by
  rw [reducedFV, cellD_ofFn, dif_pos (by decide), cellD_of_lt fv (by decide)]
  exact Nat.mod_eq_of_lt ((Nat.min_le_left _ _).trans_lt (BitVec.isLt _))

theorem toNat_reducedFV_of_ge {f : Nat} (lo : 3 ≤ f) (hi : f < 8) :
    (cellD (reducedFV fv bands) f 0).toNat = (cellD fv f 0).toNat % 2 ^ fieldWidth f := by
  rw [reducedFV, cellD_ofFn, dif_pos hi, cellD_of_lt fv hi, if_neg (show ¬f = 0 by omega),
    if_neg (show ¬f = 1 by omega), if_neg (show ¬f = 2 by omega)]
  exact Nat.mod_eq_of_lt ((Nat.mod_le _ _).trans_lt (BitVec.isLt _))

/-- Words 3 to 7 cut to their widths carry the same string. -/
theorem frameString_reducedFV : frameString (reducedFV fv bands) = frameString fv := by
  have cell {f : Nat} (lo : 3 ≤ f) (hi : f < 8) : (cellD (reducedFV fv bands) f 0).toNat %
      2 ^ fieldWidth f = (cellD fv f 0).toNat % 2 ^ fieldWidth f := by
    rw [toNat_reducedFV_of_ge fv bands lo hi, Nat.mod_mod]
  rw [frameString, frameString,
    show _ % 2 ^ 12 = _ from cell (f := 3) (by decide) (by decide),
    show _ % 2 ^ 11 = _ from cell (f := 4) (by decide) (by decide),
    show _ % 2 ^ 11 = _ from cell (f := 5) (by decide) (by decide),
    show _ % 2 ^ 11 = _ from cell (f := 6) (by decide) (by decide),
    show _ % 2 ^ 7 = _ from cell (f := 7) (by decide) (by decide)]
  rfl

theorem frameIndex_reducedFV :
    frameIndex Config.cfg (reducedFV fv bands) = frameIndex Config.cfg fv := by
  rw [frameIndex, frameIndex, toNat_reducedFV_zero, Nat.min_assoc, Nat.min_self]

theorem frameBands_reducedFV :
    frameBands Config.cfg (reducedFV fv bands) = frameBands Config.cfg fv := by
  rw [frameBands, frameBands, frameLen, frameLen, frameIndex_reducedFV]

/-- Masked to its own band count, a frame vector reads the same reduced. -/
theorem sameFrame_reducedFV :
    SameFrame Config.cfg (reducedFV fv (frameBands Config.cfg fv)) fv where
  index := frameIndex_reducedFV fv _
  flags := by
    apply BitVec.eq_of_toNat_eq
    rw [frameBands_reducedFV, toNat_maskVoicing, toNat_maskVoicing, toNat_reducedFV_one,
      Nat.mod_mod]
  gain := by rw [frameGain, frameGain, toNat_reducedFV_two, Nat.min_assoc, Nat.min_self]
  string := frameString_reducedFV fv _

end

/-- Settles O53: the reduced vector agrees with the one it comes from in all that is read. -/
theorem decodeCompletesOnEveryFrameVector : Obligations.DecodeCompletesOnEveryFrameVector := by
  unfold Obligations.DecodeCompletesOnEveryFrameVector
  intro s
  have count : (decodedRegs Config.cfg s).k.toNat = frameBands Config.cfg s.bufs.fv :=
    toNat_paramDecode_k ..
  have index : (decodedRegs Config.cfg s).pc.toNat = min s.bufs.fv[0].toNat Config.cfg.b0Max :=
    toNat_paramDecode_pc ..
  refine ⟨_, exec_decode s, rfl, rfl, index, ?frequency, ?flags, rfl, rfl, rfl, rfl, rfl, ?reduced⟩
  case frequency =>
    rw [State.done_psrf, decodeFrame_psrf, Psrf.synthesized_pc, index]
    exact toNat_paramDecode_w0 s.psrf.frameShift _
  case flags =>
    rw [State.done_psrf, decodeFrame_psrf, Psrf.synthesized_k, count]
    exact toNat_paramDecode_v s.psrf.frameShift _
  case reduced =>
    intro reduced
    have reducedEq : reduced = reducedFV s.bufs.fv (frameBands Config.cfg s.bufs.fv) :=
      congrArg (reducedFV s.bufs.fv) count
    have regs : decodedRegs Config.cfg (s.withFV reduced) = decodedRegs Config.cfg s :=
      reducedEq ▸ (sameFrame_reducedFV s.bufs.fv).paramDecode_eq s.psrf.frameShift
    exact ⟨_, exec_decode _, congrArg (Psrf.synthesized Config.cfg) regs,
      congrArg (mixedFrame Config.cfg) regs, congrArg (fun p => (noiseOutput Config.cfg p).1) regs,
      congrArg (fun p => (noiseOutput Config.cfg p).2) regs⟩

/-! ### The zeroed frame vector on a flat spectrum (46_amplitude.md R285) -/

section

variable {mp : Vector Word 56} {c : Word} {lp : Nat}

/-- In a flat spectrum every clamped read gives the one logarithm. -/
theorem prevLog_of_flat (pos : 1 ≤ lp) (le : lp ≤ 56) (flat : ∀ i : Fin 56, i.val < lp → mp[i] = c)
    (i : Nat) : prevLog mp lp i = log2Q (ampVal c) := by
  obtain ⟨j, hj⟩ : ∃ j, clampNat i 1 lp = j + 1 := ⟨clampNat i 1 lp - 1, by unfold clampNat; omega⟩
  have inside : j < lp := by
    unfold clampNat at hj
    omega
  have read : harmD mp (clampNat i 1 lp) 0 = c := by
    rw [hj, harmD_succ, cellD_of_lt mp (by omega)]
    exact flat ⟨j, by omega⟩ inside
  rw [prevLog, if_neg (by omega), read]

theorem interpLog_of_flat (pos : 1 ≤ lp) (le : lp ≤ 56)
    (flat : ∀ i : Fin 56, i.val < lp → mp[i] = c) (len l : Nat) :
    interpLog mp lp len l = log2Q (ampVal c) := by
  simp [interpLog, prevLog_of_flat pos le flat, asr]

/-- A flat spectrum predicts no shape. -/
theorem predict_of_flat (pos : 1 ≤ lp) (le : lp ≤ 56)
    (flat : ∀ i : Fin 56, i.val < lp → mp[i] = c) (cfg : Cfg) {len : Nat} (hlen : 0 < len) :
    predict cfg mp lp len = List.replicate len 0 := by
  have logs : (List.range' 1 len).map (interpLog mp lp len) =
      List.replicate len (log2Q (ampVal c) : Int) := by
    rw [List.map_congr_left fun l _ => interpLog_of_flat pos le flat len l, List.map_const',
      List.length_range']
  have mean : (List.replicate len (log2Q (ampVal c) : Int)).sum / (len : Int) =
      log2Q (ampVal c) := by
    rw [List.sum_replicate, nsmul_eq_mul, Int.mul_ediv_cancel_left _ (by omega)]
  simp only [predict, logs, mean, List.map_replicate, sub_self, mul_zero]
  rfl

end

theorem cellD_of_zero {fv : Vector Word 8} (zero : ∀ f : Fin 8, fv[f] = 0) (f : Nat) :
    cellD fv f 0 = 0 := by
  by_cases inside : f < 8
  · rw [cellD_of_lt fv inside]
    exact zero ⟨f, inside⟩
  · exact cellD_of_ge fv (Nat.le_of_not_lt inside) 0

section

variable {fv : Vector Word 8} (zero : ∀ f : Fin 8, fv[f] = 0)

include zero

theorem frameIndex_of_zero (c : Cfg) : frameIndex c fv = 0 := by
  rw [frameIndex, cellD_of_zero zero]
  exact Nat.zero_min _

theorem frameString_of_zero : frameString fv = 0 := by
  simp only [frameString, cellD_of_zero zero]
  rfl

/-- The zeroed vector has the counts of the reset pair (00_scope.md R10). -/
theorem frameCounts_of_zero : frameLen Config.cfg fv = 9 ∧ frameBands Config.cfg fv = 3 := by
  have pair := Config.resetPair
  rw [deriveLK, Prod.mk.injEq] at pair
  rwa [frameBands, frameLen, frameIndex_of_zero zero]

end

/-- The quantized amplitude of the zeroed vector where nothing is predicted: gain entry and
unvoiced level of index 0. -/
def zeroAmp : Nat :=
  exp2Q (max 0 (min 3839 ((Config.cfg.gainTab.getD 0 0).toInt +
    (Config.cfg.deqU.getD 0 0).toInt))).toNat

theorem zeroAmp_le : zeroAmp ≤ 32767 :=
  (exp2Q_le (by omega)).trans (by decide)

/-- An unvoiced band whose index is 0. -/
theorem bandLevel_zero (kk : Nat) :
    bandLevel Config.cfg 0 0 kk = s16 (Config.cfg.deqU.getD 0 0) := by
  have unvoiced : voiced 0 kk = false := voiced_zero kk
  rw [bandLevel, bandTable, unvoiced, Nat.zero_div, Nat.zero_mod]
  rfl

/-- The quantized amplitudes of the zeroed vector after a flat spectrum are all the same. -/
theorem ampDecode_of_zero {mp : Vector Word 56} {c : Word} {lp : Nat} (pos : 1 ≤ lp) (le : lp ≤ 56)
    (flat : ∀ i : Fin 56, i.val < lp → mp[i] = c) {fv : Vector Word 8}
    (zero : ∀ f : Fin 8, fv[f] = 0) :
    ampDecode Config.cfg mp lp fv 9 3 0 = List.replicate 9 zeroAmp := by
  have gain : min (cellD fv 2 0).toNat (Config.cfg.gainN - 1) = 0 := by
    rw [cellD_of_zero zero]
    exact Nat.zero_min _
  have levels : (List.range 3).map (bandLevel Config.cfg 0 0) =
      List.replicate 3 (s16 (Config.cfg.deqU.getD 0 0)) := by
    rw [List.map_congr_left fun kk _ => bandLevel_zero kk, List.map_const', List.length_range]
  have level (i : Nat) :
      (List.replicate 3 (s16 (Config.cfg.deqU.getD 0 0))).getD (band (i + 1) 3) 0 =
        s16 (Config.cfg.deqU.getD 0 0) := List.getD_replicate _ (band_lt (by decide) _)
  have clamp (x : Int) : clampInt (x + 0) 0 3839 = max 0 (min 3839 x) := by
    unfold clampInt
    omega
  simp only [ampDecode, gain, frameString_of_zero zero, levels, level,
    predict_of_flat pos le flat Config.cfg (show 0 < 9 by decide)]
  refine List.eq_replicate_iff.mpr ⟨by simp, fun q hq => ?_⟩
  obtain ⟨i, hi, rfl⟩ := List.mem_mapIdx.mp hq
  rw [List.getElem_replicate, clamp]
  rfl

/-- The amplitudes of the parameter decode, by the counts of the frame vector. -/
theorem paramDecode_m (c : Cfg) (p : Psrf) (fv : Vector Word 8) : (p.paramDecode c fv).m =
    enhance c (ampDecode c p.mp p.lp.toNat fv (frameLen c fv) (frameBands c fv)
      (maskVoicing (cellD fv 1 0) (frameBands c fv))) (frameLen c fv) := rfl

/-- Settles O42: a flat spectrum predicts no shape, index 0 gives every band the same level, and the
enhancement leaves a flat spectrum as it is. -/
theorem zeroFrameKeepsAmplitudesFlat : Obligations.ZeroFrameKeepsAmplitudesFlat := by
  unfold Obligations.ZeroFrameKeepsAmplitudesFlat
  intro s c zero pos le flat
  obtain ⟨len, bands⟩ := frameCounts_of_zero zero
  have noFlags (k : Nat) : maskVoicing (cellD s.bufs.fv 1 0) k = 0 := by
    rw [cellD_of_zero zero, maskVoicing_zero]
  refine ⟨_, exec_decode s, ?harmonics, ?bands, noFlags _, fun i => ?amps⟩
  case harmonics =>
    exact BitVec.eq_of_toNat_eq ((toNat_paramDecode_l s.psrf.frameShift _).trans len)
  case bands =>
    exact BitVec.eq_of_toNat_eq ((toNat_paramDecode_k s.psrf.frameShift _).trans bands)
  case amps =>
    have quantized : ampDecode Config.cfg s.psrf.frameShift.mp s.psrf.frameShift.lp.toNat s.bufs.fv
        9 3 0 = List.replicate 9 zeroAmp := ampDecode_of_zero pos le flat zero
    rw [State.done_psrf, decodeFrame_psrf, Psrf.synthesized_m, decodedRegs, paramDecode_m, noFlags,
      len, bands, quantized, toNat_enhance]
    simp only [Nat.succ_le_iff]
    split_ifs with inside
    · exact enhanceAmp_replicate zeroAmp_le (by omega) (by omega)
    · rfl

end Sys2Proof.Machine
end

section
/-! PROOFS. The invariant of the PSRF (49_frame_commands.md R331, R338, R341). The four frame
commands change the PSRF in two ways only, the encode path's and the decode path's; both begin
with the shift and the parameter decode, and both keep the invariant. -/

namespace Sys2Proof.Machine

/-! ### The two ways a frame command changes the PSRF -/

/-- The registers after the decode path, from the shifted registers and a frame vector. -/
def decodedSynthesized (p : Psrf) (fv : Vector Word 8) : Psrf :=
  (p.paramDecode Config.cfg fv).synthesized Config.cfg

/-- A frame command leaves the registers of the encode path or of the decode path. -/
theorem exec_frameCommand {i : Instr} (frame : isFrameCommand i = true) (s : State) :
    ∃ t, exec i s = .next t ∧
      (t.psrf = encodedRegs s.psrf.frameShift s.bufs ∨
        ∃ fv, t.psrf = decodedSynthesized s.psrf.frameShift fv) := by
  cases i with
  | encode | encodebits => exact ⟨_, rfl, .inl rfl⟩
  | decode => exact ⟨_, exec_decode s, .inr ⟨s.bufs.fv, rfl⟩⟩
  | decodebits => exact ⟨_, exec_decodebits s, .inr ⟨unpackFrame s.bufs.bs, rfl⟩⟩
  | _ => cases frame

/-- The shadow copies of `q` hold the current registers of `p` (R331). -/
structure ShadowsOf (p q : Psrf) : Prop where
  pp2 : q.pp2 = p.pp1
  pp1 : q.pp1 = p.pc
  w0p : q.w0p = p.w0
  lp : q.lp = p.l
  kp : q.kp = p.k
  vp : q.vp = p.v
  mp : q.mp = p.m

theorem shadowsOf_encodedRegs (p : Psrf) (m : Buffers) : ShadowsOf p (encodedRegs p.frameShift m) :=
  ⟨rfl, rfl, rfl, rfl, rfl, rfl, rfl⟩

theorem shadowsOf_decodedSynthesized (p : Psrf) (fv : Vector Word 8) :
    ShadowsOf p (decodedSynthesized p.frameShift fv) :=
  ⟨rfl, rfl, rfl, rfl, rfl, rfl, rfl⟩

/-- Settles O50: both paths begin with the shift and write no shadow copy after it. -/
theorem frameCommandsShiftTheShadows : Obligations.FrameCommandsShiftTheShadows := by
  unfold Obligations.FrameCommandsShiftTheShadows
  intro i frame s
  obtain ⟨t, run, regs⟩ := exec_frameCommand frame s
  have shadows : ShadowsOf s.psrf t.psrf := by
    obtain enc | ⟨fv, dec⟩ := regs
    · exact enc ▸ shadowsOf_encodedRegs s.psrf s.bufs
    · exact dec ▸ shadowsOf_decodedSynthesized s.psrf fv
  obtain ⟨pp2, pp1, w0p, lp, kp, vp, mp⟩ := shadows
  exact ⟨t, run, pp2, pp1, w0p, lp, kp, vp, mp⟩

/-! ### The current frame's registers -/

/-- `ENCODE`'s registers are the parameter decode's, but for `PC` and `THMAX`. -/
theorem frameInv_encodedRegs (p : Psrf) (m : Buffers) : FrameInv Config.cfg (encodedRegs p m) := by
  obtain ⟨freq, pair, harmonics, bands, flags, amps, ampsAbove⟩ :=
    frameInv_paramDecode p (encodeAnalysis Config.cfg p m).fv
  exact ⟨freq, pair, harmonics, bands, flags, amps, ampsAbove⟩

/-- The synthesis leaves the current frame's registers. -/
theorem frameInv_decodedSynthesized (p : Psrf) (fv : Vector Word 8) :
    FrameInv Config.cfg (decodedSynthesized p fv) := by
  obtain ⟨freq, pair, harmonics, bands, flags, amps, ampsAbove⟩ := frameInv_paramDecode p fv
  exact ⟨freq, pair, harmonics, bands, flags, amps, ampsAbove⟩

/-- Settles O51: both paths decode a frame vector into the registers. -/
theorem frameCommandsKeepCountsConsistent : Obligations.FrameCommandsKeepCountsConsistent := by
  unfold Obligations.FrameCommandsKeepCountsConsistent
  intro i frame s
  obtain ⟨t, run, regs⟩ := exec_frameCommand frame s
  have inv : FrameInv Config.cfg t.psrf := by
    obtain enc | ⟨fv, dec⟩ := regs
    · exact enc ▸ frameInv_encodedRegs _ _
    · exact dec ▸ frameInv_decodedSynthesized _ fv
  obtain ⟨freq, pair, ⟨nine, many⟩, ⟨three, twelve⟩, flags, amps, ampsAbove⟩ := inv
  exact ⟨t, run, pair, nine, many, three, twelve, flags, freq,
    fun j => ⟨amps j, fun above => ampsAbove j (Nat.lt_succ_of_le above)⟩⟩

/-! ### The invariant (R338) -/

variable {p : Psrf}

/-- The encode path keeps the invariant: the history value is in range, `THMAX` is not negative,
and the shadow copies take values that were in range. -/
theorem inv_encodedRegs (inv : Psrf.Inv Config.cfg p) (m : Buffers) :
    Psrf.Inv Config.cfg (encodedRegs p.frameShift m) := by
  obtain ⟨freq, pair, harmonics, bands, flags, amps, ampsAbove⟩ :=
    frameInv_encodedRegs p.frameShift m
  obtain ⟨pc, pp1, -⟩ := inv.history
  exact {
    freq, pair, harmonics, bands, flags, amps, ampsAbove
    prevAmps := inv.amps
    history := ⟨toNat_encodedRegs_pc_le p.frameShift m, pc, pp1⟩
    threshold := by
      rw [encodedRegs_thmax]
      exact trackedMax_le ..
    noise := inv.noise
    reservedZero := inv.reservedZero }

/-- The decode path keeps the invariant: the pitch index is clamped, and the seed is drawn anew. -/
theorem inv_decodedSynthesized (inv : Psrf.Inv Config.cfg p) (fv : Vector Word 8) :
    Psrf.Inv Config.cfg (decodedSynthesized p.frameShift fv) := by
  obtain ⟨freq, pair, harmonics, bands, flags, amps, ampsAbove⟩ :=
    frameInv_decodedSynthesized p.frameShift fv
  obtain ⟨pc, pp1, -⟩ := inv.history
  have index : (decodedSynthesized p.frameShift fv).pc.toNat = frameIndex Config.cfg fv :=
    toNat_paramDecode_pc p.frameShift fv
  exact {
    freq, pair, harmonics, bands, flags, amps, ampsAbove
    prevAmps := inv.amps
    history := ⟨index.trans_le (frameIndex_le _ _), pc, pp1⟩
    threshold := inv.threshold
    noise := toNat_noiseDraws_snd_lt _
    reservedZero := inv.reservedZero }

/-- The reset registers meet the invariant (70_reset_and_hazards.md R381). -/
theorem inv_resetOf : Psrf.Inv Config.cfg (Psrf.resetOf Config.cfg) := by
  have w0 : (Psrf.resetOf Config.cfg).w0.toNat = w0Tab Config.cfg.p2Min 0 :=
    Nat.mod_eq_of_lt (w0Tab_lt_two_pow_32 Config.two_le_p2Min)
  obtain ⟨-, modulus, -, -, below, -⟩ := Config.noise
  exact {
    freq := ⟨0, Nat.zero_le _, w0⟩
    pair := by rw [w0, Config.resetPair]; rfl
    harmonics := by decide
    bands := by decide
    flags := by decide
    amps := fun i => by simp
    ampsAbove := fun i _ => by simp
    prevAmps := fun i => by simp
    history := ⟨Nat.zero_le _, Nat.zero_le _, Nat.zero_le _⟩
    threshold := by decide
    noise := (toNat_resetOf_seed below modulus).trans_lt below
    reservedZero := rfl }

/-- Settles O60. -/
theorem resetMeetsTheInvariant : Obligations.ResetMeetsTheInvariant := inv_resetOf

/-- Every command keeps the invariant. -/
theorem exec_inv {s t : State} (inv : s.Inv) {i : Instr} (run : exec i s = .next t) : t.Inv := by
  unfold State.Inv at inv ⊢
  cases frame : isFrameCommand i with
  | false =>
    obtain ⟨u, run', -, same⟩ := exec_next i s
    obtain rfl := Host.Outcome.next.inj (run'.symm.trans run)
    rwa [same frame]
  | true =>
    obtain ⟨u, run', regs⟩ := exec_frameCommand frame s
    obtain rfl := Host.Outcome.next.inj (run'.symm.trans run)
    obtain enc | ⟨fv, dec⟩ := regs
    · exact enc ▸ inv_encodedRegs inv s.bufs
    · exact dec ▸ inv_decodedSynthesized inv fv

/-- Settles O59, by the four things a step can be. -/
theorem stepKeepsTheInvariant : Obligations.StepKeepsTheInvariant := by
  unfold Obligations.StepKeepsTheInvariant
  intro s t inv stepped
  obtain ⟨-, rfl⟩ | ⟨rest, -, rfl⟩ | ⟨p, rest, i, -, -, run⟩ | ⟨p, rest, e, -, -, rfl⟩ :=
    step_cases stepped
  · exact inv
  · exact inv_resetOf
  · exact exec_inv (s := { s with inbox := rest }) inv run
  · exact inv

/-! ### The decoder tracks the encoder (R341) -/

/-- The amplitudes of a parameter decode depend on the shadow amplitudes and their count only. -/
theorem paramDecode_m_congr {p q : Psrf} (mp : p.mp = q.mp) (lp : p.lp = q.lp) (c : Cfg)
    (fv : Vector Word 8) : (p.paramDecode c fv).m = (q.paramDecode c fv).m := by
  rw [paramDecode_m, paramDecode_m, mp, lp]

/-- After the shift, both paths decode the one frame vector against the same shadow copies. -/
theorem tracks_of_same_frame {e d e' d' : State} (h : Tracks e d) (a : EncodeAnalysis)
    (enc : e'.psrf = e.psrf.frameShift.encoded Config.cfg a)
    (dec : d'.psrf = decodedSynthesized d.psrf.frameShift a.fv) : Tracks e' d' where
  w0 := by rw [enc, dec]; rfl
  l := by rw [enc, dec]; rfl
  k := by rw [enc, dec]; rfl
  v := by rw [enc, dec]; rfl
  m := by
    rw [enc, dec]
    exact paramDecode_m_congr h.m h.l Config.cfg a.fv
  w0p := by rw [enc, dec]; exact h.w0
  lp := by rw [enc, dec]; exact h.l
  kp := by rw [enc, dec]; exact h.k
  vp := by rw [enc, dec]; exact h.v
  mp := by rw [enc, dec]; exact h.m

/-- Settles O58: the frame vector `ENCODE` leaves is the one it has decoded itself. -/
theorem decoderTracksTheEncoder : Obligations.DecoderTracksTheEncoder := by
  unfold Obligations.DecoderTracksTheEncoder
  intro e d h
  exact ⟨_, _, exec_encode e, exec_decode _, tracks_of_same_frame h _ (encodeFrame_psrf e _) rfl⟩

end Sys2Proof.Machine
end
